-- ==== Sys2Proof/Word.lean ====
section
/-! DEFINITION. The word of the ITD's ports and a frame of words (00_scope.md R12, 20_memory.md R50, R52, R54). -/

namespace Sys2Proof

/-- A port word: 32 bits, bit 0 the least significant (R12, R54). -/
abbrev Word := BitVec 32

/-- A command or response frame: its words in the order they cross the port, `W0` or `Q0` first (R50, R70, R78). -/
abbrev Frame := List Word

end Sys2Proof
end

