-- ==== Sys2Proof/Config.lean ====
section
/-! DEFINITION. What one build of the ITD fixes: the type of its parameters (00_scope.md R10, 92_eei_decisions.md D9, D29,
D30). The values this row's machine runs with are `Machine.itdConfig`. The spec leaves no value of an operation free, so
there is no opaque constant here. -/

namespace Sys2Proof

/-- One row of `RATE_TABLE`: a rate code, its rate in Hz and its SYT interval in samples (40_clock_arith.md R110). -/
structure RateRow where
  code : BitVec 8
  rate : Nat
  sytInterval : Nat
  deriving DecidableEq, Repr

/-- The parameters of 00_scope.md R10 that a model takes as arguments; fixed when the instance is built, never changed by
a command (10_state.md R33). `N_INST` is the length of a `Machine.Platform`, which has one configuration per instance. -/
structure Config where
  /-- `W_CHAN`, the width of `CHAN` in bits (D6). -/
  wChan : Nat
  /-- `ROLL_ADD`, the rollover addend of `splice` (R103, D30). -/
  rollAdd : Nat
  /-- `W_DB`, the width of `DB_COUNT` in bits (D9). -/
  wDb : Nat
  /-- `RATE_TABLE`, a finite map given as its rows (R110, D29). -/
  rateTable : List RateRow
  deriving DecidableEq, Repr

end Sys2Proof
end

