-- ==== Sys2Proof/Syntax.lean ====
section
/-! DEFINITION. The operation set: exactly the three rows of spec/opcode_table.json (30_encoding.md R71). The operand
widths are in the types (R72 to R74), so every term is an operation the frames can spell; no operand value is refused
(60_exceptions.md R215). -/

namespace Sys2Proof

/-- An operation of the ITD with its operands in the source's argument order (R88). -/
inductive Instr where
  /-- `INIT chan`: construct the decoder (41_init.md R120). -/
  | init (chan : BitVec 32)
  /-- `DCS raw32`: decode a cycle-start register word (42_cycle_start.md R130). -/
  | dcs (raw32 : BitVec 32)
  /-- `DPK quads_per_payload, sec, cycle, cip0, cip1`: decode one packet (43_decode_packet.md R140). -/
  | dpk (quadsPerPayload : BitVec 32) (sec : BitVec 8) (cycle : BitVec 16) (cip0 cip1 : BitVec 32)
  deriving DecidableEq, Repr

end Sys2Proof
end

