-- ==== Sys2Proof/WellFormed.lean ====
section
/-! DEFINITION. The two things of this hardware that can be ill-formed: a command frame (against the rows of
spec/opcode_table.json: match, mask, words) and a configuration. An `Instr` cannot: its types carry the operand widths,
and every operand value is accepted (30_encoding.md R74, R77, R87; 60_exceptions.md R215). -/

namespace Sys2Proof

/-- One row of spec/opcode_table.json: which header words it matches and how long its frame is. -/
structure OpcodeRow where
  pattern : Word
  mask : Word
  words : Nat
  deriving DecidableEq, Repr

/-- The opcode table, INIT, DCS, DPK, with the match and mask of `W0` (30_encoding.md R71 to R77). -/
def opcodeTable : List OpcodeRow :=
  [⟨0x10000000#32, 0xFFFFFFFF#32, 2⟩, ⟨0x20000000#32, 0xFFFFFFFF#32, 2⟩, ⟨0x30000000#32, 0xFF000000#32, 4⟩]

/-- A header word that a row of the table matches (R76, R77). -/
def OpcodeRow.accepts (r : OpcodeRow) (w0 : Word) : Bool := w0 &&& r.mask == r.pattern

/-- A whole, legal command frame: some row matches its header and gives its length (R75 to R77). -/
def Frame.wellFormed : Frame → Bool
  | [] => false
  | w0 :: ops => opcodeTable.any fun r => r.accepts w0 && ops.length + 1 == r.words

/-- A configuration of the ITD: positive rates and intervals, one row per code (D29, U18), a counter that the response
layout can carry, `W_DB ≤ 64` (30_encoding.md R81, D9), and a channel identifier that the one operand word of `F-INIT` can
fill, `W_CHAN ≤ 32` (R72; log entry 21). -/
def Config.wellFormed (c : Config) : Bool :=
  c.rateTable.all (fun r => decide (0 < r.rate) && decide (0 < r.sytInterval))
    && decide (c.rateTable.map RateRow.code).Nodup
    && decide (c.wDb ≤ 64)
    && decide (c.wChan ≤ 32)

end Sys2Proof
end

