-- ==== Sys2Proof/Decode.lean ====
section
/-! DEFINITION. From the words of the command port to an operation and back (30_encoding.md R70 to R77). The decoder is
total; it rejects by name. -/

namespace Sys2Proof

/-- The operation number `op = W0[31:28]` (R70, R71). -/
def opOf (w0 : Word) : BitVec 4 := w0.extractLsb' 28 4

/-- The operation numbers of R71. -/
def opInit : BitVec 4 := 0x1#4
def opDcs : BitVec 4 := 0x2#4
def opDpk : BitVec 4 := 0x3#4

/-- The length of a frame, a function of `W0[31:28]` alone (R75). -/
def frameLength (op : BitVec 4) : Nat :=
  if op = opInit then 2 else if op = opDcs then 2 else if op = opDpk then 4 else 1

/-- `W0[27:0]`, reserved in `F-INIT` and `F-DCS` (R77). -/
def shortReserved (w0 : Word) : BitVec 28 := w0.extractLsb' 0 28

/-- `W0[27:24]`, reserved in `F-DPK` (R77). -/
def dpkReserved (w0 : Word) : BitVec 4 := w0.extractLsb' 24 4

/-- `sec = W0[23:16]` of `F-DPK` (R74). -/
def secField (w0 : Word) : BitVec 8 := w0.extractLsb' 16 8

/-- `cycle = W0[15:0]` of `F-DPK` (R74). -/
def cycleField (w0 : Word) : BitVec 16 := w0.extractLsb' 0 16

/-- Why a header word spells no operation. -/
inductive IllegalHeader where
  /-- `W0[31:28]` is not 1, 2 or 3 (R76); the header is consumed alone. -/
  | unknownOp
  /-- A reserved bit of `W0` is set (R77); the frame is consumed at its full length. -/
  | reservedBit
  deriving DecidableEq, Repr

/-- What the decoder finds at the front of the words waiting at the command port. -/
inductive Decoded where
  /-- A whole legal frame: the operation, and the words after it. -/
  | command (i : Instr) (rest : List Word)
  /-- A frame whose header spells no operation: its operation number, why, and the words after it (R76, R77). -/
  | illegal (op : BitVec 4) (why : IllegalHeader) (rest : List Word)
  /-- The words end inside a frame (93_implementation_defined.md U13). -/
  | incomplete
  /-- No word is waiting. -/
  | empty
  deriving DecidableEq, Repr

/-- Reads one frame off the front of the word stream: first `W0`, which gives the length, then the operands (R75). -/
def decode : List Word → Decoded
  | [] => .empty
  | w0 :: ops =>
    if opOf w0 = opInit then
      match ops with
      | w1 :: rest =>
        if shortReserved w0 = 0#28 then .command (.init w1) rest else .illegal (opOf w0) .reservedBit rest
      | [] => .incomplete
    else if opOf w0 = opDcs then
      match ops with
      | w1 :: rest =>
        if shortReserved w0 = 0#28 then .command (.dcs w1) rest else .illegal (opOf w0) .reservedBit rest
      | [] => .incomplete
    else if opOf w0 = opDpk then
      match ops with
      | w1 :: w2 :: w3 :: rest =>
        if dpkReserved w0 = 0#4 then .command (.dpk w1 (secField w0) (cycleField w0) w2 w3) rest
        else .illegal (opOf w0) .reservedBit rest
      | _ => .incomplete
    else .illegal (opOf w0) .unknownOp ops

/-- The header word of an operation, in the spec's own form: `0x30000000 | (sec << 16) | cycle` for DPK (R140), the bare
operation number otherwise (R72, R73). -/
def header : Instr → Word
  | .init _ => 0x10000000#32
  | .dcs _ => 0x20000000#32
  | .dpk _ sec cycle _ _ => 0x30000000#32 ||| (sec.setWidth 32 <<< 16) ||| cycle.setWidth 32

/-- The command frame of an operation (R72 to R74). -/
def encode : Instr → Frame
  | .init chan => [header (.init chan), chan]
  | .dcs raw32 => [header (.dcs raw32), raw32]
  | .dpk q sec cycle cip0 cip1 => [header (.dpk q sec cycle cip0 cip1), q, cip0, cip1]

/-- The words of an instruction given as one number of `nbits` bits, `W0` its lowest 32 bits and each later word the next
32, every bit above `nbits` zero, cut at the length its own header gives (R75). -/
def tableFrame (nbits w : Nat) : Frame :=
  let v := w % 2 ^ nbits
  let w0 := BitVec.ofNat 32 v
  [w0, BitVec.ofNat 32 (v >>> 32), BitVec.ofNat 32 (v >>> 64), BitVec.ofNat 32 (v >>> 96)].take (frameLength (opOf w0))

/-- The operation the decoder reads from an instruction given as one number, as spec/opcode_table.json numbers its bits. -/
def decodeTableWord (nbits w : Nat) : Option Instr :=
  match decode (tableFrame nbits w) with
  | .command i _ => some i
  | .illegal _ _ _ => none
  | .incomplete => none
  | .empty => none

/-- The second and cycle fields of a cycle-start register word (R83): `raw32[31:25]` and `raw32[24:12]`. -/
def cycleStartSecond (raw32 : Word) : BitVec 7 := raw32.extractLsb' 25 7
def cycleStartCycle (raw32 : Word) : BitVec 13 := raw32.extractLsb' 12 13

/-- The one pseudo-instruction, `DPKR quads_per_payload, raw32, cip0, cip1`: the assembler does the DCS; the 7-bit second
goes into the 8-bit field unreduced (R89). -/
def dpkr (q raw32 cip0 cip1 : Word) : Instr :=
  .dpk q ((cycleStartSecond raw32).setWidth 8) ((cycleStartCycle raw32).setWidth 16) cip0 cip1

end Sys2Proof
end

