-- ==== Sys2Proof/Machine/Params.lean ====
section
/-! DEFINITION. The fixed constants of the clock domain and the parameter values of this row's ITD (00_scope.md R9, R10). -/

namespace Sys2Proof.Machine

/-- `OFFSET_MAX`: offsets in one cycle (R9, R100). -/
def offsetMax : Nat := 3072

/-- `CYCLE_MAX`: cycles in one second (R9, R100). -/
def cycleMax : Nat := 8000

/-- `SEC_MAX`: seconds in the whole domain (R9, R100). -/
def secMax : Nat := 8

/-- `T`: ticks in the whole eight-second domain; the source calls it `ticks_per_second` (R9, R100). -/
def tickDomain : Nat := cycleMax * offsetMax * secMax

/-- `TICKS_PER_REAL_SECOND`: ticks in one second, the factor of the drift increment (R10, R111). -/
def ticksPerRealSecond : Nat := cycleMax * offsetMax

/-- `HALF_T = T / 2 = 98,304,000` (R10, R108). -/
def halfDomain : Nat := tickDomain / 2

/-- `NO_SYT`, the sentinel for a packet with no timestamp (R10, R146). -/
def noSyt : BitVec 16 := 0xffff#16

/-- `S_MASK` and `C_MASK` of the cycle-start word (R10, R83). -/
def sMask : Word := 0xFE000000#32
def cMask : Word := 0x01FFF000#32

/-- `RATE_TABLE` with the default rows of R110. PRESUMED (by the spec itself, G1): every row but 0x02. Log entry 10. -/
def defaultRateTable : List RateRow :=
  [⟨0x00#8, 32000, 8⟩, ⟨0x01#8, 44100, 8⟩, ⟨0x02#8, 48000, 8⟩, ⟨0x03#8, 88200, 16⟩,
   ⟨0x04#8, 96000, 16⟩, ⟨0x05#8, 176400, 32⟩, ⟨0x06#8, 192000, 32⟩]

/-- The configuration this row's machine runs with: the defaults of R10. UNVERIFIED: `ROLL_ADD` is the source's literal
`0xe`, unaudited (log entry 11). DESIGN CHOICE (the spec's default): `W_DB = 64` (log entry 12). Any other build runs by
`stepWith` (Build.lean). -/
def itdConfig : Config := { wChan := 32, rollAdd := 0xe, wDb := 64, rateTable := defaultRateTable }

end Sys2Proof.Machine
end

