-- ==== Sys2Proof/Machine/Clock.lean ====
section
/-! DEFINITION. The modular clock arithmetic engine (40_clock_arith.md): exact integers throughout (R13, R109); the drift
accumulator in whole sub-ticks (R112). Every function is total and reads no state. -/

namespace Sys2Proof.Machine

/-- Composition of the three clock levels into ticks, not reduced modulo `T` (R101). -/
def tick (sec cycle offset : Nat) : Nat := (sec * cycleMax + cycle) * offsetMax + offset

/-- Carry from cycle into second: at most one second, then the second modulo 8 in either case (R102). -/
def carry (sec cycle : Nat) : Nat × Nat :=
  if cycleMax ≤ cycle then ((sec + 1) % secMax, cycle % cycleMax) else (sec % secMax, cycle)

/-- Splice of the four `syt` cycle bits into the arrival cycle (R103). -/
def splice (c : Config) (cycle sytCycle : Nat) : Nat :=
  let t := if sytCycle < cycle &&& 0xf then cycle + c.rollAdd else cycle
  (t &&& 0x1ff0) ||| sytCycle

/-- Forward distance in the tick domain; equal operands give 0 (R105). -/
def fwd (a b : Int) : Int := if 0 ≤ b - a then b - a else tickDomain + (b - a)

/-- Gap in the offset domain; the test is strict, so equal operands give 3072 (R107). -/
def gap3072 (p q : Int) : Int := if p < q then q - p else offsetMax + q - p

/-- The row of `RATE_TABLE` for a rate code, if there is one (R110, R156). -/
def rateOf (c : Config) (sfc : BitVec 8) : Option RateRow := c.rateTable.find? fun r => r.code == sfc

/-- The denominator, in lowest terms, of a row's increment `24576000 × syt_interval / rate` (R111, R112). -/
def incrementDen (r : RateRow) : Nat := r.rate / Nat.gcd (ticksPerRealSecond * r.sytInterval) r.rate

/-- `SUBTICK_DEN`: the least common multiple of the denominators of the table's increments; 147 for the default table
(R10, R112). -/
def subtickDen (c : Config) : Nat := c.rateTable.foldr (fun r d => Nat.lcm (incrementDen r) d) 1

/-- `INC(sfc)` in sub-ticks, a whole number of them (R111, R112). -/
def increment (c : Config) (r : RateRow) : Nat := ticksPerRealSecond * r.sytInterval * subtickDen c / r.rate

/-- The tick domain in sub-ticks, the modulus of the accumulator: `28,901,376,000` for the default table (R113). -/
def subtickDomain (c : Config) : Nat := tickDomain * subtickDen c

/-- A whole number of ticks in sub-ticks (R112). -/
def toSubticks (c : Config) (ticks : Nat) : Nat := ticks * subtickDen c

/-- The accumulator advanced by one increment and reduced, in sub-ticks (R113, R157). -/
def advance (c : Config) (lastAccum : Nat) (r : RateRow) : Nat := (lastAccum + increment c r) % subtickDomain c

/-- Shortest circular difference of a prediction and a timestamp, both in sub-ticks; the second arm adds `T` whatever the
sign (R108). -/
def cdiff (c : Config) (accum tstamp : Int) : Int :=
  let e := accum - tstamp
  if e.natAbs < halfDomain * subtickDen c then e else subtickDomain c + e

end Sys2Proof.Machine
end

