-- ==== Sys2Proof/Machine/Response.lean ====
section
/-! DEFINITION. What the ITD answers: the ITD's faults (60_exceptions.md R210 to R214), the record (43_decode_packet.md
R161), the typed response, its frame of words and the reader of such a frame (30_encoding.md R78 to R82). -/

namespace Sys2Proof.Machine

/-- The five faults of the ITD (R210, R211). Each is an answer to one command, after which the machine goes on; none is
the model's `Fault`. -/
inductive ItdFault where
  /-- DPK: a packet with a timestamp whose `sfc` is not in the rate table (R212); it records the `sfc`. -/
  | unsupportedRate (sfc : BitVec 8)
  /-- DPK: `cip0[23:16] = 0` (R213). -/
  | dbsZero
  /-- DPK: `quads_per_payload < 2` (R213). -/
  | shortPayload
  /-- A header word that spells no operation (R214). -/
  | illegalCommand
  /-- DPK: the reported count does not fit `W_DB` bits (R213). -/
  | counterOverflow
  deriving DecidableEq, Repr

/-- The fault code, `Q0[27:24]` (R211). -/
def faultCode : ItdFault → BitVec 4
  | .unsupportedRate _ => 1#4
  | .dbsZero => 2#4
  | .shortPayload => 3#4
  | .illegalCommand => 4#4
  | .counterOverflow => 5#4

/-- The information byte, `Q0[23:16]`: the `sfc` for `UnsupportedRate`, 0 otherwise (R82, R211). -/
def faultInfo : ItdFault → BitVec 8
  | .unsupportedRate sfc => sfc
  | .dbsZero => 0#8
  | .shortPayload => 0#8
  | .illegalCommand => 0#8
  | .counterOverflow => 0#8

/-- An exact rational number of ticks as a count of sub-ticks: `num / den` ticks, `den` being the instance's
`SUBTICK_DEN` (40_clock_arith.md R112). -/
structure SubTicks where
  num : Int
  den : Nat
  deriving DecidableEq, Repr

/-- The timestamp side of a record, the eight fields present only when `syt ≠ 0xffff` (R161). -/
structure TimestampSide where
  tSec : Nat
  tCycle : Nat
  tOffset : Nat
  tstamp : Nat
  elapse : Int
  delay : Int
  delayGap : Int
  accumDiff : SubTicks
  deriving DecidableEq, Repr

/-- The record of a DPK that completed; `ts = none` is "absent" (R81, R161). -/
structure Record where
  ts : Option TimestampSide
  dbsPerPayload : Nat
  dbCount : Nat
  deriving DecidableEq, Repr

/-- The response to one command. -/
inductive Response where
  /-- INIT completed (R79). -/
  | ok
  /-- DCS completed: the pair `(second, cycle)` (R80). -/
  | position (second : BitVec 7) (cycle : BitVec 13)
  /-- DPK completed (R81). -/
  | record (r : Record)
  /-- The operation faulted; the command's own operation number is copied (R82). -/
  | fault (op : BitVec 4) (f : ItdFault)
  deriving DecidableEq, Repr

/-- The response header `Q0`: `op`, the fault code, the information byte, fifteen zeros, `tsv` (R78). -/
def responseHeader (op code : BitVec 4) (info : BitVec 8) (tsv : BitVec 1) : Word := op ++ code ++ info ++ 0#15 ++ tsv

/-- The high and the low word of a 64-bit field (R81). -/
def highWord (v : BitVec 64) : Word := v.extractLsb' 32 32
def lowWord (v : BitVec 64) : Word := v.extractLsb' 0 32

/-- `Q1`: four zeros, `t_sec` in 27:25, `t_cycle` in 24:12, `t_offset` in 11:0 (R81). -/
def clockWord (tSec tCycle tOffset : Nat) : Word :=
  0#4 ++ BitVec.ofNat 3 tSec ++ BitVec.ofNat 13 tCycle ++ BitVec.ofNat 12 tOffset

/-- The words `Q1` to `Q7`; all zero, meaning "absent", when there is no timestamp (R81). -/
def timestampWords : Option TimestampSide → Frame
  | none => List.replicate 7 0#32
  | some t =>
    [clockWord t.tSec t.tCycle t.tOffset, BitVec.ofNat 32 t.tstamp, BitVec.ofInt 32 t.elapse, BitVec.ofInt 32 t.delay,
     BitVec.ofInt 32 t.delayGap, highWord (BitVec.ofInt 64 t.accumDiff.num), lowWord (BitVec.ofInt 64 t.accumDiff.num)]

/-- The eleven words of a completed DPK (R81). -/
def recordFrame (r : Record) : Frame :=
  responseHeader opDpk 0#4 0#8 (BitVec.ofBool r.ts.isSome) :: timestampWords r.ts
    ++ [BitVec.ofNat 32 r.dbsPerPayload, highWord (BitVec.ofNat 64 r.dbCount), lowWord (BitVec.ofNat 64 r.dbCount)]

/-- The response frame (R78 to R82). A field outside the range its words hold, which no reachable state produces, is cut to
them (log entry 14). -/
def Response.frame : Response → Frame
  | .ok => [responseHeader opInit 0#4 0#8 0#1]
  | .position second cycle => [responseHeader opDcs 0#4 0#8 0#1, (second.setWidth 32 <<< 16) ||| cycle.setWidth 32]
  | .record r => recordFrame r
  | .fault op f => [responseHeader op (faultCode f) (faultInfo f) 0#1]

/-- The fault a response header names, by its code and information byte; codes 0 and 6 to 15 name none (R211). -/
def faultOfCode (code : BitVec 4) (info : BitVec 8) : Option ItdFault :=
  if code = 1#4 then some (.unsupportedRate info)
  else if code = 2#4 then some .dbsZero
  else if code = 3#4 then some .shortPayload
  else if code = 4#4 then some .illegalCommand
  else if code = 5#4 then some .counterOverflow
  else none

/-- The host's reading of the timestamp words `Q1` to `Q7` of a frame whose `tsv` is 1, in sub-ticks of `1/den` (R81). -/
def readTimestamp (den : Nat) (q1 q2 q3 q4 q5 q6 q7 : Word) : TimestampSide :=
  { tSec := (q1.extractLsb' 25 3).toNat
    tCycle := (q1.extractLsb' 12 13).toNat
    tOffset := (q1.extractLsb' 0 12).toNat
    tstamp := q2.toNat
    elapse := q3.toInt
    delay := q4.toInt
    delayGap := q5.toInt
    accumDiff := ⟨(q6 ++ q7 : BitVec 64).toInt, den⟩ }

/-- The host's reading of a response frame (R78 to R82): what the words say, for an ITD whose sub-tick is `1/den`. -/
def readResponse (den : Nat) : Frame → Option Response
  | [q0] =>
    if q0.extractLsb' 24 4 = 0#4 then if opOf q0 = opInit then some .ok else none
    else (faultOfCode (q0.extractLsb' 24 4) (q0.extractLsb' 16 8)).map (.fault (opOf q0))
  | [_, q1] => some (.position (q1.extractLsb' 16 7) (q1.extractLsb' 0 13))
  | [q0, q1, q2, q3, q4, q5, q6, q7, q8, q9, q10] =>
    some (.record
      { ts := if q0.getLsbD 0 then some (readTimestamp den q1 q2 q3 q4 q5 q6 q7) else none
        dbsPerPayload := q8.toNat
        dbCount := (q9 ++ q10 : BitVec 64).toNat })
  | _ => none

end Sys2Proof.Machine
end

