-- ==== Sys2Proof/Machine/State.lean ====
section
/-! DEFINITION. The state of one ITD instance, plain data: the six registers of 10_state.md R20, four of them optional, and
the two ports of 20_memory.md R50. -/

namespace Sys2Proof.Machine

/-- One ITD instance (R20, R21). A register with a valid flag is an `Option`: `none` is flag 0 and no value (R15, R22). -/
structure State where
  /-- `CHAN`: opaque channel identifier, written by INIT, read by nothing (R23); below `2^W_CHAN` (R20). -/
  chan : Nat
  /-- `RESET_CYCLE` with `RESET_CYCLE_V`: the `cycle` operand of the first packet. -/
  resetCycle : Option (BitVec 16)
  /-- `DB_COUNT`: the running data-block counter, below `2^W_DB` in every reachable state (R145). -/
  dbCount : Nat
  /-- `LAST_TSTAMP` with `LAST_TSTAMP_V`: ticks. -/
  lastTstamp : Option Nat
  /-- `LAST_DELAY` with `LAST_DELAY_V`: ticks, signed, full size (R154). -/
  lastDelay : Option Int
  /-- `LAST_ACCUM` with `LAST_ACCUM_V`: whole sub-ticks (R21, R112). -/
  lastAccum : Option Nat
  /-- The command port: words presented and not yet consumed, in order. The MODEL's own field (log entry 1). -/
  cmdPort : List Word
  /-- The response port: the responses presented, oldest first. The MODEL's own field (log entry 2). -/
  rspPort : List Response
  deriving DecidableEq, Repr

/-- Why no further transition exists. -/
inductive Fault where
  /-- Raised by `step` when the command port is empty: the host has issued no further command and the run ends here
  (70_reset_and_hazards.md R254). Safe: the hardware holds its state and waits (60_exceptions.md R234). Log entry 4. -/
  | noCommand
  deriving DecidableEq, Repr

/-- Why a step has no meaning. -/
inductive Refusal where
  /-- Raised by no instruction of this model: all three have their meaning. Safe. -/
  | notModelled (mnemonic : String)
  /-- Raised by `step` when the word stream ends inside a frame: "A stream that stops mid-frame gives no transition and no
  response" (93_implementation_defined.md U13). Safe. Log entry 5. -/
  | frameIncomplete
  deriving DecidableEq, Repr

/-- The state after hardware reset: R35 with `CHAN = 0` (R36, R240); both ports empty (log entries 1 and 2). -/
def State.reset : State :=
  { chan := 0, resetCycle := none, dbCount := 0, lastTstamp := none, lastDelay := none, lastAccum := none,
    cmdPort := [], rspPort := [] }

end Sys2Proof.Machine
end

