-- ==== Sys2Proof/Machine/Ops.lean ====
section
/-! DEFINITION. The named operations over an instance's state: the ports, the ITD's fault, construction and the two parts of
DPK's commit. There is no memory and no register file to read by number (10_state.md R30, R34). -/

namespace Sys2Proof.Machine

/-- The host presents words on the command port, after those already waiting (20_memory.md R50, R55). -/
def State.present (ws : List Word) (s : State) : State := { s with cmdPort := s.cmdPort ++ ws }

/-- The frame at the front of the command port has been consumed; `rest` is what still waits (30_encoding.md R75). -/
def State.takeFrame (rest : List Word) (s : State) : State := { s with cmdPort := rest }

/-- The instance presents one response (R50). -/
def State.respond (r : Response) (s : State) : State := { s with rspPort := s.rspPort ++ [r] }

/-- Taking a fault, the ITD's one exception entry: it saves nothing, changes no register and no mode; its whole effect is
the fault response, with the command's operation number (60_exceptions.md R216, R225). There is no return operation: the
next command runs in the state the faulting one found (R226). -/
def State.raise (op : BitVec 4) (f : ItdFault) (s : State) : State := s.respond (.fault op f)

/-- What the `CHAN` of a build holds of INIT's operand: all of it at the spec's `W_CHAN = 32` (00_scope.md R10, R72). DESIGN
CHOICE: a narrower one keeps the low bits (log entry 21). -/
def chanValue (c : Config) (chan : BitVec 32) : Nat := chan.toNat % 2 ^ c.wChan

/-- The constructed state of the registers, with `CHAN` the operand (10_state.md R35, 41_init.md R120). -/
def State.construct (c : Config) (chan : BitVec 32) (s : State) : State :=
  { s with chan := chanValue c chan, resetCycle := none, dbCount := 0, lastTstamp := none, lastDelay := none, lastAccum := none }

/-- The data-block part of a commit: `RESET_CYCLE_V <- 1`, `RESET_CYCLE`, `DB_COUNT` (43_decode_packet.md R146, R160). -/
def State.commitBlocks (resetCycle : BitVec 16) (running : Nat) (s : State) : State :=
  { s with resetCycle := some resetCycle, dbCount := running }

/-- The timestamp part of a full commit: the three timestamp registers and their flags together (R160). -/
def State.commitTimestamp (tstamp : Nat) (delay : Int) (accum : Nat) (s : State) : State :=
  { s with lastTstamp := some tstamp, lastDelay := some delay, lastAccum := some accum }

end Sys2Proof.Machine
end

