-- ==== Sys2Proof/Machine/CycleStart.lean ====
section
/-! DEFINITION. DCS, decoding the cycle-start register word (42_cycle_start.md). -/

namespace Sys2Proof.Machine

/-- DCS on an instance of any build: answers the full seven bits of the second and thirteen of the cycle, nothing reduced or
checked; reads and writes no register and depends on no parameter (R130, R131). -/
def runCycleStart (raw32 : BitVec 32) (s : State) : State :=
  s.respond (.position (cycleStartSecond raw32) (cycleStartCycle raw32))

/-- `DCS raw32`. -/
def execDcs (raw32 : BitVec 32) (s : State) : Host.Outcome State Fault Refusal := .next (runCycleStart raw32 s)

end Sys2Proof.Machine
end

