-- ==== Sys2Proof/Machine/Init.lean ====
section
/-! DEFINITION. INIT, construction of a decoder (41_init.md). -/

namespace Sys2Proof.Machine

/-- INIT on an instance built with configuration `c`: every register and flag to its constructed value, at any time and from
any state; answers `OK` (R120, R121). -/
def runInit (c : Config) (chan : BitVec 32) (s : State) : State := (s.construct c chan).respond .ok

/-- `INIT chan`. It cannot fault once its header is legal (30_encoding.md R79). -/
def execInit (chan : BitVec 32) (s : State) : Host.Outcome State Fault Refusal := .next (runInit itdConfig chan s)

end Sys2Proof.Machine
end

