-- ==== Sys2Proof/Machine/Operands.lean ====
section
/-! DEFINITION. The operand fields the operations read (30_encoding.md R84 to R87): unsigned, contiguous, zero-extended;
extraction never fails. The cycle-start fields (R83) are in Decode.lean, where the assembler needs them too. -/

namespace Sys2Proof.Machine

/-- The five operands of one DPK (43_decode_packet.md R140). -/
structure Packet where
  quadsPerPayload : BitVec 32
  sec : BitVec 8
  cycle : BitVec 16
  cip0 : BitVec 32
  cip1 : BitVec 32
  deriving DecidableEq, Repr

/-- `quads_per_db = cip0[23:16]` (R84). -/
def Packet.quadsPerDb (p : Packet) : BitVec 8 := p.cip0.extractLsb' 16 8

/-- `syt = cip1[15:0]` (R85). -/
def Packet.syt (p : Packet) : BitVec 16 := p.cip1.extractLsb' 0 16

/-- `sfc = cip1[23:16]`, the whole byte (R85). -/
def Packet.sfc (p : Packet) : BitVec 8 := p.cip1.extractLsb' 16 8

/-- `t_offset = syt[11:0]`, used as it is, 0 to 4095 (R86, R147). -/
def Packet.tOffset (p : Packet) : Nat := (p.syt.extractLsb' 0 12).toNat

/-- `syt_cycle = syt[15:12]`, 0 to 15 (R86, R147). -/
def Packet.sytCycle (p : Packet) : Nat := (p.syt.extractLsb' 12 4).toNat

/-- The operand word the host makes of a quadlet's four wire bytes, in the order received (20_memory.md R52). -/
def ofWireBytes (b0 b1 b2 b3 : BitVec 8) : Word := b0 ++ b1 ++ b2 ++ b3

end Sys2Proof.Machine
end

