-- ==== Sys2Proof/Machine/Packet.lean ====
section
/-! DEFINITION. DPK, decoding one packet (43_decode_packet.md): local values first, in the order of the rules, then one commit
(R141). Every operation here takes the configuration as an argument; `execDpk` is the machine's, at `itdConfig`. -/

namespace Sys2Proof.Machine

/-- The results of step 1, the data-block counter. -/
structure BlockCount where
  /-- `rc'`, the `RESET_CYCLE` to commit (R143, R144). -/
  resetCycle : BitVec 16
  /-- `dbs_per_payload` (R142). -/
  perPayload : Nat
  /-- `db_report`, the count the record carries (R143, R144). -/
  report : Nat
  /-- `run'`, the `DB_COUNT` to commit (R143, R144). -/
  running : Nat
  deriving DecidableEq, Repr

/-- `dbs_per_payload`, or the fault of an input with no quotient; `ShortPayload` is tested first (R142). -/
def blocksPerPayload (p : Packet) : Except ItdFault Nat :=
  if p.quadsPerPayload.toNat < 2 then .error .shortPayload
  else if p.quadsPerDb = 0#8 then .error .dbsZero
  else .ok ((p.quadsPerPayload.toNat - 2) / p.quadsPerDb.toNat)

/-- The counter for a packet of `dbs` data blocks: the first packet's are not counted; later, the reported count goes on,
and the running counter goes back to 0 when the cycle is `RESET_CYCLE` (R143, R144). -/
def accumulateBlocks (cycle : BitVec 16) (dbs : Nat) (s : State) : BlockCount :=
  match s.resetCycle with
  | none => { resetCycle := cycle, perPayload := dbs, report := 0, running := 0 }
  | some rc =>
    { resetCycle := rc, perPayload := dbs, report := s.dbCount + dbs,
      running := if cycle = rc then 0 else s.dbCount + dbs }

/-- Step 1: the data-block counter, with its three faults in their order (R142 to R145). -/
def countBlocks (c : Config) (p : Packet) (s : State) : Except ItdFault BlockCount :=
  match blocksPerPayload p with
  | .error f => .error f
  | .ok dbs =>
    if 2 ^ c.wDb ≤ (accumulateBlocks p.cycle dbs s).report then .error .counterOverflow
    else .ok (accumulateBlocks p.cycle dbs s)

/-- The reconstructed second and cycle: splice, then carry (R148, R149). -/
def reconstructCycle (c : Config) (p : Packet) : Nat × Nat := carry p.sec.toNat (splice c p.cycle.toNat p.sytCycle)

/-- The reconstructed timestamp, not reduced modulo `T` (R150). -/
def tstampOf (c : Config) (p : Packet) : Nat := tick (reconstructCycle c p).1 (reconstructCycle c p).2 p.tOffset

/-- `elapse`: forward distance from the last valid packet's timestamp, 0 on the first (R151). -/
def elapseOf (tstamp : Nat) (s : State) : Int :=
  match s.lastTstamp with
  | none => 0
  | some last => fwd last tstamp

/-- `start`: the tick position of the arrival cycle, from the operands as given (R153). -/
def startOf (p : Packet) : Nat := tick (p.sec.toNat % secMax) p.cycle.toNat 0

/-- `delay`: forward distance from `start` to the timestamp, kept at its full size (R153, R154). -/
def delayOf (p : Packet) (tstamp : Nat) : Int := fwd (startOf p) tstamp

/-- `delay_gap`: gap to the last valid packet's delay, 0 on the first (R155). -/
def delayGapOf (delay : Int) (s : State) : Int :=
  match s.lastDelay with
  | none => 0
  | some last => gap3072 last delay

/-- `accum` in sub-ticks: the timestamp on the first valid packet, the advanced prediction afterwards (R157). -/
def accumOf (c : Config) (r : RateRow) (tstamp : Nat) (s : State) : Nat :=
  match s.lastAccum with
  | none => toSubticks c tstamp
  | some last => advance c last r

/-- `accum_diff` in sub-ticks: 0 on the first valid packet, the circular difference afterwards (R158). -/
def driftOf (c : Config) (r : RateRow) (tstamp : Nat) (s : State) : Int :=
  match s.lastAccum with
  | none => 0
  | some last => cdiff c (advance c last r) (toSubticks c tstamp)

/-- The timestamp side of the record, from the state the operation began with (R161). -/
def timestampSide (c : Config) (p : Packet) (r : RateRow) (s : State) : TimestampSide :=
  let tstamp := tstampOf c p
  let delay := delayOf p tstamp
  { tSec := (reconstructCycle c p).1
    tCycle := (reconstructCycle c p).2
    tOffset := p.tOffset
    tstamp := tstamp
    elapse := elapseOf tstamp s
    delay := delay
    delayGap := delayGapOf delay s
    accumDiff := ⟨driftOf c r tstamp s, subtickDen c⟩ }

/-- The early commit and its record: a packet with no timestamp changes the data-block registers only (R146). -/
def commitUntimed (b : BlockCount) (s : State) : State :=
  (s.commitBlocks b.resetCycle b.running).respond (.record { ts := none, dbsPerPayload := b.perPayload, dbCount := b.report })

/-- The full commit and its record (R160, R161). -/
def commitTimed (c : Config) (p : Packet) (r : RateRow) (b : BlockCount) (s : State) : State :=
  ((s.commitBlocks b.resetCycle b.running).commitTimestamp (tstampOf c p) (delayOf p (tstampOf c p))
      (accumOf c r (tstampOf c p) s)).respond
    (.record { ts := some (timestampSide c p r s), dbsPerPayload := b.perPayload, dbCount := b.report })

/-- DPK on an instance built with configuration `c` (R141): step 1, the validity gate, the rate lookup, one commit; any
fault writes nothing (R216). -/
def runPacket (c : Config) (p : Packet) (s : State) : State :=
  match countBlocks c p s with
  | .error f => s.raise opDpk f
  | .ok b =>
    if p.syt = noSyt then commitUntimed b s
    else
      match rateOf c p.sfc with
      | none => s.raise opDpk (.unsupportedRate p.sfc)
      | some r => commitTimed c p r b s

/-- `DPK quads_per_payload, sec, cycle, cip0, cip1` (R140). -/
def execDpk (quadsPerPayload : BitVec 32) (sec : BitVec 8) (cycle : BitVec 16) (cip0 cip1 : BitVec 32) (s : State) :
    Host.Outcome State Fault Refusal :=
  .next (runPacket itdConfig ⟨quadsPerPayload, sec, cycle, cip0, cip1⟩ s)

end Sys2Proof.Machine
end

