-- ==== Sys2Proof/Machine/Dispatch.lean ====
section
/-! DEFINITION. The meaning of each operation, one arm per constructor (30_encoding.md R71). -/

namespace Sys2Proof.Machine

def exec (i : Instr) (s : State) : Host.Outcome State Fault Refusal :=
  match i with
  | .init chan => Sys2Proof.Machine.execInit chan s
  | .dcs raw32 => Sys2Proof.Machine.execDcs raw32 s
  | .dpk q sec cycle cip0 cip1 => Sys2Proof.Machine.execDpk q sec cycle cip0 cip1 s

end Sys2Proof.Machine
end

