-- ==== Sys2Proof/Machine/Fetch.lean ====
section
/-! DEFINITION. What a step does around the meaning of an operation: the fetch, the answer to a frame that spells no
operation, and the placing of one instruction where the next fetch finds it. -/

namespace Sys2Proof.Machine

/-- A header that spells no operation: the frame is consumed, no register changes, the answer is `IllegalCommand`
(30_encoding.md R76, R77; 60_exceptions.md R214). -/
def answerIllegal (op : BitVec 4) (rest : List Word) (s : State) : State := (s.takeFrame rest).raise op .illegalCommand

/-- One step of an instance whose operations have the meaning `meaning`: the frame at the front of the command port is
consumed and answered (20_memory.md R55). -/
def stepBy (meaning : Instr → State → Host.Outcome State Fault Refusal) (s : State) : Host.Outcome State Fault Refusal :=
  match decode s.cmdPort with
  | .command i rest => meaning i (s.takeFrame rest)
  | .illegal op _ rest => .next (answerIllegal op rest s)
  | .incomplete => .refused .frameIncomplete
  | .empty => .fault .noCommand

/-- The words of one instruction, placed at the front of the command port. -/
def placeFirst (f : Frame) (s : State) : State := { s with cmdPort := f ++ s.cmdPort }

end Sys2Proof.Machine
end

