-- ==== Sys2Proof/Machine/Step.lean ====
section
/-! DEFINITION. One step: one whole operation (20_memory.md R55, 00_scope.md R19). The frame at the front of the command port
is consumed and answered with exactly one response. -/

namespace Sys2Proof.Machine

/-- Fetch the next command frame and run it. -/
def step (s : State) : Host.Outcome State Fault Refusal := stepBy exec s

/-- `s` with one instruction, given as a number of `nbits` bits as spec/opcode_table.json numbers them, presented at the
front of the command port, where the next `step` fetches (log entry 3). -/
def State.withFetchWord (s : State) (nbits w : Nat) : State := placeFirst (tableFrame nbits w) s

end Sys2Proof.Machine
end

