-- ==== Sys2Proof/Machine/Assembly.lean ====
section
/-! DEFINITION. The assembly line of 30_encoding.md R88 and R89: a mnemonic, then its operands in the source's order, comma
separated, each a decimal or `0x` hexadecimal literal. DESIGN CHOICE: where spaces may stand (log entry 17). -/

namespace Sys2Proof.Machine

/-- A decimal digit's value. -/
def decimalDigit (ch : Char) : Option Nat := if '0' ≤ ch ∧ ch ≤ '9' then some (ch.toNat - '0'.toNat) else none

/-- A hexadecimal digit's value, either case. -/
def hexDigit (ch : Char) : Option Nat :=
  if '0' ≤ ch ∧ ch ≤ '9' then some (ch.toNat - '0'.toNat)
  else if 'a' ≤ ch ∧ ch ≤ 'f' then some (ch.toNat - 'a'.toNat + 10)
  else if 'A' ≤ ch ∧ ch ≤ 'F' then some (ch.toNat - 'A'.toNat + 10)
  else none

/-- The value of digits in a base, after those already read. -/
def readDigits (base : Nat) (digit : Char → Option Nat) : Nat → List Char → Option Nat
  | acc, [] => some acc
  | acc, ch :: cs =>
    match digit ch with
    | none => none
    | some d => readDigits base digit (acc * base + d) cs

/-- A literal: `0x` and hexadecimal digits, or decimal digits; at least one digit (R88, 00_scope.md R14). -/
def readLiteral : List Char → Option Nat
  | [] => none
  | '0' :: 'x' :: [] => none
  | '0' :: 'x' :: cs => readDigits 16 hexDigit 0 cs
  | cs => readDigits 10 decimalDigit 0 cs

/-- A literal that fits an operand of `w` bits (30_encoding.md R72 to R74). -/
def readOperand (w : Nat) (cs : List Char) : Option (BitVec w) :=
  match readLiteral cs with
  | none => none
  | some n => if n < 2 ^ w then some (BitVec.ofNat w n) else none

/-- A text without the spaces at its two ends. -/
def trimSpaces (cs : List Char) : List Char := ((cs.dropWhile (· == ' ')).reverse.dropWhile (· == ' ')).reverse

/-- A text cut at each comma, with at least one part. -/
def splitCommas : List Char → List (List Char)
  | [] => [[]]
  | ch :: cs =>
    match splitCommas cs with
    | [] => [[ch]]
    | part :: parts => if ch = ',' then [] :: part :: parts else (ch :: part) :: parts

/-- The operation a mnemonic and its operand texts spell; `DPKR` is the pseudo-instruction (R88, R89). -/
def assembleOperands : List Char → List (List Char) → Option Instr
  | ['I', 'N', 'I', 'T'], [a] =>
    match readOperand 32 a with
    | some chan => some (.init chan)
    | none => none
  | ['D', 'C', 'S'], [a] =>
    match readOperand 32 a with
    | some raw32 => some (.dcs raw32)
    | none => none
  | ['D', 'P', 'K'], [a, b, c, d, e] =>
    match readOperand 32 a, readOperand 8 b, readOperand 16 c, readOperand 32 d, readOperand 32 e with
    | some q, some sec, some cycle, some cip0, some cip1 => some (.dpk q sec cycle cip0 cip1)
    | _, _, _, _, _ => none
  | ['D', 'P', 'K', 'R'], [a, b, c, d] =>
    match readOperand 32 a, readOperand 32 b, readOperand 32 c, readOperand 32 d with
    | some q, some raw32, some cip0, some cip1 => some (dpkr q raw32 cip0 cip1)
    | _, _, _, _ => none
  | _, _ => none

/-- One assembly line: the mnemonic up to the first space, then the operands (R88). -/
def assembleChars (line : List Char) : Option Instr :=
  let cs := trimSpaces line
  assembleOperands (cs.takeWhile (· != ' ')) ((splitCommas (cs.dropWhile (· != ' '))).map trimSpaces)

/-- A program: its lines top to bottom, as operations; none where a line spells none (R88). -/
def assembleProgram : List String → Option (List Instr)
  | [] => some []
  | line :: lines =>
    match assembleChars line.toList, assembleProgram lines with
    | some i, some is => some (i :: is)
    | _, _ => none

/-- The words a host presents for a list of operations (R70, R88). -/
def programWords (is : List Instr) : List Word := is.flatMap encode

/-- A decimal literal (R88). -/
def literalText {w : Nat} (v : BitVec w) : List Char := Nat.toDigits 10 v.toNat

/-- An operation written as an assembly line, its operands decimal (R88). -/
def assemblyChars : Instr → List Char
  | .init chan => "INIT ".toList ++ literalText chan
  | .dcs raw32 => "DCS ".toList ++ literalText raw32
  | .dpk q sec cycle cip0 cip1 =>
    "DPK ".toList ++ ", ".toList.intercalate [literalText q, literalText sec, literalText cycle, literalText cip0, literalText cip1]

/-- The name of a fault (60_exceptions.md R211). -/
def faultName : ItdFault → String
  | .unsupportedRate _ => "UnsupportedRate"
  | .dbsZero => "DbsZero"
  | .shortPayload => "ShortPayload"
  | .illegalCommand => "IllegalCommand"
  | .counterOverflow => "CounterOverflow"

/-- How an assembly listing writes a response (R88). The spec abbreviates a record to three dots between braces, and so does
this (log entry 17); the braces are characters 123 and 125. -/
def responseText : Response → String
  | .ok => "-> OK"
  | .position second cycle =>
    "-> (" ++ String.ofList (literalText second) ++ ", " ++ String.ofList (literalText cycle) ++ ")"
  | .record _ => "-> Rec" ++ String.ofList [Char.ofNat 123, '.', '.', '.', Char.ofNat 125]
  | .fault _ f => "-> FAULT " ++ faultName f

end Sys2Proof.Machine
end

