-- ==== Sys2Proof/Machine/Build.lean ====
section
/-! DEFINITION. The machine with its parameters as a configuration argument (00_scope.md R10): an ITD built with any `Config`.
`exec`, `step` and `core` are the build of `itdConfig`. -/

namespace Sys2Proof.Machine

/-- The meaning of an operation on an instance built with configuration `c` (30_encoding.md R71, 00_scope.md R10). -/
def execWith (c : Config) (i : Instr) (s : State) : Host.Outcome State Fault Refusal :=
  match i with
  | .init chan => .next (runInit c chan s)
  | .dcs raw32 => .next (runCycleStart raw32 s)
  | .dpk q sec cycle cip0 cip1 => .next (runPacket c ⟨q, sec, cycle, cip0, cip1⟩ s)

/-- One step of an instance built with configuration `c`. -/
def stepWith (c : Config) (s : State) : Host.Outcome State Fault Refusal := stepBy (execWith c) s

/-- An ITD built with configuration `c`, behind the host's interface. -/
def coreWith (c : Config) : Host.Core :=
  { State := State, Fault := Fault, Refusal := Refusal, step := stepWith c, reset := State.reset }

end Sys2Proof.Machine
end

