-- ==== Sys2Proof/Machine/Platform.lean ====
section
/-! DEFINITION. Several instances (60_exceptions.md R231, R232; 20_memory.md R57, R60): each has its own state and its own
ports, and a frame is for the instance at whose port it is presented. Log entry 15. -/

namespace Sys2Proof.Machine

/-- One instance of a platform: the configuration it was built with (10_state.md R33) and its state. -/
structure Instance where
  config : Config
  state : State
  deriving DecidableEq, Repr

/-- The instances of a platform, by the number of their port; `N_INST` is the length (00_scope.md R10). -/
abbrev Platform := List Instance

/-- `N_INST ≥ 1` (R10, R231), and every instance is a build of the ITD. -/
def Platform.wellFormed (p : Platform) : Bool := !p.isEmpty && p.all fun x => x.config.wellFormed

/-- A platform of these builds after hardware reset (R231, 70_reset_and_hazards.md R240). -/
def Platform.reset (builds : List Config) : Platform := builds.map fun c => ⟨c, State.reset⟩

/-- The host presents words at one instance's command port (R232). -/
def Platform.presentAt (k : Nat) (ws : List Word) (p : Platform) : Platform :=
  p.modify k fun x => { x with state := x.state.present ws }

/-- One operation of one instance; none where there is no such instance or it has no transition. -/
def Platform.stepAt (k : Nat) (p : Platform) : Option Platform :=
  match p[k]? with
  | none => none
  | some x =>
    match stepWith x.config x.state with
    | .next t => some (p.set k { x with state := t })
    | .fault _ => none
    | .refused _ => none

/-- Operations of the instances in the order a schedule names them (R60). -/
def Platform.runSchedule : List Nat → Platform → Option Platform
  | [], p => some p
  | k :: ks, p =>
    match p.stepAt k with
    | none => none
    | some q => runSchedule ks q

end Sys2Proof.Machine
end

