-- ==== Sys2Proof/Machine/Rational.lean ====
section
/-! DEFINITION. The drift arithmetic as the spec first states it, on exact rationals of ticks (00_scope.md R13,
40_clock_arith.md R108, R111, R113). The machine runs the sub-tick functions of Clock.lean; the statements say they are
the same arithmetic. -/

namespace Sys2Proof.Machine

/-- `INC(sfc) = 24,576,000 × syt_interval / rate`, an exact rational number of ticks (R111). -/
def rationalIncrement (r : RateRow) : ℚ := (ticksPerRealSecond : ℚ) * r.sytInterval / r.rate

/-- `q mod T = q - T × floor(q / T)` (R13). -/
def rationalMod (q : ℚ) : ℚ := q - tickDomain * (⌊q / tickDomain⌋ : ℤ)

/-- `accum = (LAST_ACCUM + INC(sfc)) mod T` (R113, R157). -/
def rationalAdvance (lastAccum : ℚ) (r : RateRow) : ℚ := rationalMod (lastAccum + rationalIncrement r)

/-- `cdiff(a, t)` for a rational `a` and an integer `t` (R108). -/
def rationalCdiff (a : ℚ) (t : ℤ) : ℚ := if |a - t| < (tickDomain : ℚ) / 2 then a - t else tickDomain + (a - t)

/-- The number of ticks that a whole number of sub-ticks is (R112). -/
def ticksOfSubticks (c : Config) (n : ℤ) : ℚ := (n : ℚ) / subtickDen c

end Sys2Proof.Machine
end

