-- ==== Sys2Proof/Machine/Row.lean ====
section
/-! DEFINITION. The fixed text contract (44_row_format.md): two constants and one pure function of the record, outside the
state machine (00_scope.md R5). Log entry 16. -/

namespace Sys2Proof.Machine

/-- `HEADER`, 65 characters, no line terminator (R190). -/
def headerLine : String := "s- c--- o--- | tstamp--- elps | delay gap- | accumdif | db dbcnt-"

/-- `SEPARATOR`, 65 characters (R191). -/
def separatorLine : String := "-- ---- ---- | --------- ---- | ----- ---- | -------- | -- ------"

/-- The widths of the ten columns, in their four groups (R192). -/
def columnWidths : List (List Nat) := [[2, 4, 4], [9, 4], [5, 4], [8], [2, 6]]

/-- Pads on the left with spaces to `w` characters; a longer text is kept whole (R195). -/
def padLeft (w : Nat) (cs : List Char) : List Char := List.replicate (w - cs.length) ' ' ++ cs

/-- Decimal digits with no leading zeros, 0 as `0` (R195). -/
def decimal (n : Nat) : List Char := Nat.toDigits 10 n

/-- A `-` for a negative value, no sign otherwise (R195, R196). -/
def signText (v : Int) : List Char := if v < 0 then ['-'] else []

/-- An integer column (R195). -/
def intColumn (w : Nat) (v : Int) : List Char := padLeft w (signText v ++ decimal v.natAbs)

/-- `accum_diff × 100` rounded to the nearest integer, a tie to the even one (R196, D23). -/
def hundredths (d : SubTicks) : Int :=
  let q := 100 * d.num / d.den
  let r := 100 * d.num % d.den
  if 2 * r < d.den then q else if (d.den : Int) < 2 * r then q + 1 else if q % 2 = 0 then q else q + 1

/-- A number below 100 as two digits (R196). -/
def twoDigits (n : Nat) : List Char := [Nat.digitChar (n / 10), Nat.digitChar (n % 10)]

/-- The drift column: sign, whole ticks, a point, two digits, padded to 8 (R196). -/
def driftColumn (w : Nat) (d : SubTicks) : List Char :=
  let n := hundredths d
  padLeft w (signText n ++ decimal (n.natAbs / 100) ++ '.' :: twoDigits (n.natAbs % 100))

/-- A column of dashes (R194). -/
def dashColumn (w : Nat) : List Char := List.replicate w '-'

/-- Columns of a group joined by one space, groups by space, bar, space (R192, R193). -/
def joinColumns (groups : List (List (List Char))) : List Char :=
  [' ', '|', ' '].intercalate (groups.map fun g => [' '].intercalate g)

/-- The eight timestamp-side columns in their four groups: numbers, or dashes when absent (R193, R194). -/
def timestampColumns : Option TimestampSide → List (List (List Char))
  | none => [[dashColumn 2, dashColumn 4, dashColumn 4], [dashColumn 9, dashColumn 4], [dashColumn 5, dashColumn 4],
      [dashColumn 8]]
  | some t => [[intColumn 2 t.tSec, intColumn 4 t.tCycle, intColumn 4 t.tOffset], [intColumn 9 t.tstamp, intColumn 4 t.elapse],
      [intColumn 5 t.delay, intColumn 4 t.delayGap], [driftColumn 8 t.accumDiff]]

/-- The characters of `ROW(rec)` (R193, R194). -/
def rowChars (r : Record) : List Char :=
  joinColumns (timestampColumns r.ts ++ [[intColumn 2 r.dbsPerPayload, intColumn 6 r.dbCount]])

/-- `ROW(rec)`: a function of the record alone, with no line terminator (R197). -/
def row (r : Record) : String := String.ofList (rowChars r)

/-- The rows of a sequence of responses: one for each completed DPK, none for any other response (R197; 95_test_vectors.md
section 7). -/
def rowsOf : List Response → List String
  | [] => []
  | .record r :: rs => row r :: rowsOf rs
  | .ok :: rs => rowsOf rs
  | .position _ _ :: rs => rowsOf rs
  | .fault _ _ :: rs => rowsOf rs

/-- A listing: `HEADER`, `SEPARATOR`, then one row per packet (R197). -/
def listing (rs : List Response) : List String := headerLine :: separatorLine :: rowsOf rs

end Sys2Proof.Machine
end

