-- ==== Sys2Proof/Machine/Flags.lean ====
section
/-! DEFINITION. The only flags of the ITD: the four valid flags (10_state.md R15, R20, R32). -/

namespace Sys2Proof.Machine

/-- `RESET_CYCLE_V`. -/
def State.resetCycleV (s : State) : Bool := s.resetCycle.isSome

/-- `LAST_TSTAMP_V`. -/
def State.lastTstampV (s : State) : Bool := s.lastTstamp.isSome

/-- `LAST_DELAY_V`. -/
def State.lastDelayV (s : State) : Bool := s.lastDelay.isSome

/-- `LAST_ACCUM_V`. -/
def State.lastAccumV (s : State) : Bool := s.lastAccum.isSome

/-- The four valid flags, in the order of R20's table. -/
def State.flags (s : State) : List Bool := [s.resetCycleV, s.lastTstampV, s.lastDelayV, s.lastAccumV]

end Sys2Proof.Machine
end

