-- ==== Sys2Proof/Safety.lean ====
section
/-! DEFINITION. The terms claims use: the invariants the spec gives the state (10_state.md R25 to R29), what
step 1 of DPK counts (43_decode_packet.md R142 to R145), runs and reachable states (70_reset_and_hazards.md R254). -/

namespace Sys2Proof.Machine

/-- The largest `tstamp` of all, `T + 1023` (R28, R29). -/
def maxTstamp : Nat := 196609023

/-- The least `delay` of all (R28, R29). -/
def minDelay : Int := -176747520

/-- R25: the three timestamp flags are equal. -/
def FlagsEqual (s : State) : Prop := s.lastTstampV = s.lastDelayV ∧ s.lastDelayV = s.lastAccumV

/-- R26: before the first packet the counter is 0 and every timestamp register is unset. -/
def FreshCounter (s : State) : Prop :=
  s.resetCycleV = false →
    s.dbCount = 0 ∧ s.lastTstampV = false ∧ s.lastDelayV = false ∧ s.lastAccumV = false

/-- R28, the ranges of the stored values, and R20's range of `CHAN`, for an instance built with configuration `c`. -/
structure InRange (c : Config) (s : State) : Prop where
  chan : s.chan < 2 ^ c.wChan
  count : s.dbCount < 2 ^ c.wDb
  tstamp : ∀ v, s.lastTstamp = some v → v ≤ maxTstamp
  delay : ∀ v, s.lastDelay = some v → minDelay ≤ v ∧ v ≤ maxTstamp
  accum : ∀ v, s.lastAccum = some v → v ≤ maxTstamp * subtickDen c

/-- The invariants of 10_state.md section 2 that speak of one state (R25, R26, R28). -/
structure Inv (c : Config) (s : State) : Prop where
  flags : FlagsEqual s
  fresh : FreshCounter s
  range : InRange c s

/-- The DPK command with the operands of a packet (R140). -/
def Packet.instr (p : Packet) : Instr := .dpk p.quadsPerPayload p.sec p.cycle p.cip0 p.cip1

/-- The operands for which step 1 has a quotient (R142): a payload with its header and a data-block size. -/
abbrev HasQuotient (p : Packet) : Prop := 2 ≤ p.quadsPerPayload.toNat ∧ p.quadsPerDb ≠ 0#8

/-- `(quads_per_payload - 2) div quads_per_db` (R142). -/
def quotient (p : Packet) : Nat := (p.quadsPerPayload.toNat - 2) / p.quadsPerDb.toNat

/-- The count the record carries: 0 for the first packet, the running counter plus this packet's blocks later (R143, R144). -/
def reportedCount (p : Packet) (s : State) : Nat := if s.resetCycle = none then 0 else s.dbCount + quotient p

/-- The running counter after the packet: 0 after the first packet and after every match of the cycle (R143, R144). -/
def runningCount (p : Packet) (s : State) : Nat :=
  if s.resetCycle = none ∨ s.resetCycle = some p.cycle then 0 else reportedCount p s

/-- Step 1 completes: there is a quotient and the reported count fits the 64 bits of `DB_COUNT` (R142, R145). -/
abbrev BlocksCounted (p : Packet) (s : State) : Prop := HasQuotient p ∧ reportedCount p s < 2 ^ 64

/-- The sub-ticks that one packet adds to the accumulator: the increment of its rate if it commits with a timestamp, else
none (R146, R156, R157). -/
def accumulatorStep (c : Config) (p : Packet) (s : State) : Nat :=
  match countBlocks c p s with
  | .error _ => 0
  | .ok _ =>
    if p.syt = noSyt then 0
    else
      match rateOf c p.sfc with
      | none => 0
      | some r => increment c r

/-- A stream of packets on an instance built with configuration `c`. -/
def runPackets (c : Config) : List Packet → State → State
  | [], s => s
  | p :: ps, s => runPackets c ps (runPacket c p s)

/-- What a stream of packets adds to the accumulator (R157). -/
def accumulatorSteps (c : Config) : List Packet → State → Nat
  | [], _ => 0
  | p :: ps, s => accumulatorStep c p s + accumulatorSteps c ps (runPacket c p s)

/-- The registers of two states agree; the ports may differ. -/
def SameRegisters (s t : State) : Prop :=
  t.chan = s.chan ∧ t.resetCycle = s.resetCycle ∧ t.dbCount = s.dbCount ∧ t.lastTstamp = s.lastTstamp ∧
    t.lastDelay = s.lastDelay ∧ t.lastAccum = s.lastAccum

/-- The operations of a list run one after another, each by its own meaning, with no fetch (R55). -/
def execAll : List Instr → State → Host.Outcome State Fault Refusal
  | [], s => .next s
  | i :: is, s =>
    match exec i s with
    | .next t => execAll is t
    | .fault f => .fault f
    | .refused r => .refused r

/-- `n` steps of one instance. -/
def run (n : Nat) (s : State) : Host.Outcome State Fault Refusal := Host.Core.run Sys2Proof.core n s

/-- `n` steps of one instance built with configuration `c`. -/
def runWith (c : Config) (n : Nat) (s : State) : Host.Outcome State Fault Refusal := Host.Core.run (coreWith c) n s

/-- The states an instance can come to: hardware reset, the host presenting words, one operation (R18, R254). -/
inductive Reachable : State → Prop where
  | reset : Reachable State.reset
  | present (ws : List Word) {s : State} : Reachable s → Reachable (s.present ws)
  | step {s t : State} : Reachable s → step s = .next t → Reachable t

end Sys2Proof.Machine
end

