-- ==== Sys2Proof/Certificates/Slice0/Obligations.lean ====
section
/-! DEFINITION. The statements for the provers, from the numbered rules of spec/. -/

section
open Sys2Proof Sys2Proof.Machine

/-! Commands and their frames (30_encoding.md). -/

/-- Every operation is read back from its frame, whatever words follow (R70 to R75). -/
def Obligations.DecodeOfEncodeIsTheOperation : Prop :=
  ∀ (i : Instr) (rest : List Word), decode (encode i ++ rest) = .command i rest

/-- The decoder reads an operation from its own frame only: no other words spell it (R71 to R77). -/
def Obligations.EveryDecodedCommandIsItsEncoding : Prop :=
  ∀ (ws : List Word) (i : Instr) (rest : List Word), decode ws = .command i rest → ws = encode i ++ rest

/-- The frames that the opcode table's match, mask and length accept are exactly the encodings. -/
def Obligations.TableFramesAreTheEncodings : Prop :=
  ∀ f : Frame, f.wellFormed = true ↔ ∃ i, f = encode i

/-- The worked encodings of 30_encoding.md section 4 decode to what they spell. -/
def Obligations.WorkedEncodingsDecode : Prop :=
  decode [0x10000000#32, 0x00000005#32] = .command (.init 5#32) [] ∧
  decode [0x20000000#32, 0x0FF3F000#32] = .command (.dcs 0x0FF3F000#32) [] ∧
  decode [0x30030064#32, 0x00000012#32, 0x00020000#32, 0x000273E8#32] =
    .command (.dpk 18#32 3#8 100#16 0x00020000#32 0x000273E8#32) []

/-- The length of a frame is a function of `W0[31:28]` alone, and that many words are consumed, by a legal frame and by an
illegal one (R75 to R77). Fewer words than that give no operation: U13 refuses the case, and that the decoder answers it
`incomplete` is the model's choice, log entry 5. -/
def Obligations.FrameLengthFollowsHeader : Prop :=
  (frameLength 0x1#4 = 2 ∧ frameLength 0x2#4 = 2 ∧ frameLength 0x3#4 = 4 ∧
    ∀ op : BitVec 4, op ≠ 0x1#4 → op ≠ 0x2#4 → op ≠ 0x3#4 → frameLength op = 1) ∧
  ∀ (w0 : Word) (ops : List Word),
    if ops.length + 1 < frameLength (opOf w0) then decode (w0 :: ops) = .incomplete
    else (∃ i, decode (w0 :: ops) = .command i ((w0 :: ops).drop (frameLength (opOf w0)))) ∨
      ∃ why, decode (w0 :: ops) = .illegal (opOf w0) why ((w0 :: ops).drop (frameLength (opOf w0)))

/-- R76: a header word with no operation's number is answered with `IllegalCommand`, changes no register and is consumed
alone; the all-zero word is one. -/
def Obligations.UnknownOperationIsAnswered : Prop :=
  (∀ (s : State) (w0 : Word) (ops : List Word), s.cmdPort = w0 :: ops →
    w0.extractLsb' 28 4 ≠ 0x1#4 → w0.extractLsb' 28 4 ≠ 0x2#4 → w0.extractLsb' 28 4 ≠ 0x3#4 →
    step s = .next { s with cmdPort := ops, rspPort := s.rspPort ++ [.fault (w0.extractLsb' 28 4) .illegalCommand] }) ∧
  (0x00000000#32).extractLsb' 28 4 = 0x0#4

/-- R77: a set reserved bit is answered with `IllegalCommand`, changes no register and the frame is taken at its full
length; operand words have no reserved bits. -/
def Obligations.ReservedBitIsAnswered : Prop :=
  (∀ (s : State) (w0 w1 : Word) (rest : List Word), s.cmdPort = w0 :: w1 :: rest →
    w0.extractLsb' 28 4 = 0x1#4 ∨ w0.extractLsb' 28 4 = 0x2#4 → w0.extractLsb' 0 28 ≠ 0#28 →
    step s = .next { s with cmdPort := rest, rspPort := s.rspPort ++ [.fault (w0.extractLsb' 28 4) .illegalCommand] }) ∧
  (∀ (s : State) (w0 w1 w2 w3 : Word) (rest : List Word), s.cmdPort = w0 :: w1 :: w2 :: w3 :: rest →
    w0.extractLsb' 28 4 = 0x3#4 → w0.extractLsb' 24 4 ≠ 0#4 →
    step s = .next { s with cmdPort := rest, rspPort := s.rspPort ++ [.fault 0x3#4 .illegalCommand] }) ∧
  (∀ (w1 : Word) (rest : List Word), decode (0x10000000#32 :: w1 :: rest) = .command (.init w1) rest ∧
    decode (0x20000000#32 :: w1 :: rest) = .command (.dcs w1) rest) ∧
  (∀ (w0 w1 w2 w3 : Word) (rest : List Word), w0.extractLsb' 24 8 = 0x30#8 →
    decode (w0 :: w1 :: w2 :: w3 :: rest) =
      .command (.dpk w1 (w0.extractLsb' 16 8) (w0.extractLsb' 0 16) w2 w3) rest)

/-- R89: the pseudo-instruction takes its arrival position from the two fields of the cycle-start word, the second
unreduced. -/
def Obligations.PseudoInstructionTakesBothFields : Prop :=
  ∀ q raw32 cip0 cip1 : Word, ∃ (sec : BitVec 8) (cycle : BitVec 16), dpkr q raw32 cip0 cip1 = .dpk q sec cycle cip0 cip1 ∧
    sec.toNat = raw32.toNat / 2 ^ 25 ∧ cycle.toNat = raw32.toNat / 2 ^ 12 % 2 ^ 13 ∧
    ∀ s : State, exec (.dcs raw32) s =
      .next { s with rspPort := s.rspPort ++ [.position (sec.setWidth 7) (cycle.setWidth 13)] }

/-- An operation printed as an assembly line is assembled back (R88). -/
def Obligations.AssemblyLineRoundTrip : Prop :=
  ∀ i : Instr, assembleChars (assemblyChars i) = some i

/-! Steps and runs (20_memory.md, 70_reset_and_hazards.md). -/

/-- A step runs the operation at the front of the command port by its meaning; it consumes the frame and adds nothing. The
same holds of an instance built with any configuration, and the machine's own operations and steps are those of the build
`itdConfig` (R10; log entry 9). -/
def Obligations.StepRunsTheDecodedOperation : Prop :=
  (∀ (s : State) (i : Instr) (rest : List Word), decode s.cmdPort = .command i rest →
    step s = exec i { s with cmdPort := rest }) ∧
  (∀ (s : State) (i : Instr) (rest : List Word), s.cmdPort = encode i ++ rest →
    step s = exec i { s with cmdPort := rest }) ∧
  (∀ (c : Config) (s : State) (i : Instr) (rest : List Word), s.cmdPort = encode i ++ rest →
    stepWith c s = execWith c i { s with cmdPort := rest }) ∧
  (∀ (i : Instr) (s : State), exec i s = execWith itdConfig i s) ∧ ∀ s : State, step s = stepWith itdConfig s

/-- With no word at the command port there is no transition. The named stop is the model's choice, log entry 4. -/
def Obligations.EmptyCommandPortEndsTheRun : Prop :=
  ∀ s : State, s.cmdPort = [] → step s = .fault .noCommand

/-- U13: a word stream that ends inside a frame gives no transition and no response. The name is the model's, log entry 5. -/
def Obligations.StreamEndingInsideFrameIsRefused : Prop :=
  ∀ (s : State) (w0 : Word) (ops : List Word), s.cmdPort = w0 :: ops →
    (w0.extractLsb' 28 4 = 0x1#4 ∨ w0.extractLsb' 28 4 = 0x2#4) ∧ ops = [] ∨ w0.extractLsb' 28 4 = 0x3#4 ∧ ops.length < 3 →
    step s = .refused .frameIncomplete

/-- Every whole frame, legal or not, is consumed and answered with exactly one response, which copies its operation number
(R50, R55, R78, R252). -/
def Obligations.EveryWholeFrameIsAnsweredOnce : Prop :=
  ∀ (s : State) (w0 : Word) (ops : List Word), s.cmdPort = w0 :: ops → frameLength (opOf w0) ≤ ops.length + 1 →
    ∃ t r q0 qs, step s = .next t ∧ t.cmdPort = (w0 :: ops).drop (frameLength (opOf w0)) ∧
      t.rspPort = s.rspPort ++ [r] ∧ r.frame = q0 :: qs ∧ opOf q0 = opOf w0

/-- Words presented later do not change an operation whose frame is whole (R54, R55). -/
def Obligations.LaterWordsDoNotChangeAStep : Prop :=
  ∀ (s t : State) (ws : List Word), step s = .next t → step (s.present ws) = .next (t.present ws)

/-- A list of operations presented as words runs as its meanings one after another, with nothing left over or lost, however
long it is (R55, R58, R254). -/
def Obligations.RunOfPresentedProgramIsItsMeanings : Prop :=
  ∀ (is : List Instr) (rest : List Word) (s : State),
    run is.length { s with cmdPort := programWords is ++ rest } = execAll is { s with cmdPort := rest }

/-! Reset and INIT (10_state.md, 41_init.md, 70_reset_and_hazards.md). -/

/-- R36: the registers after hardware reset. -/
def Obligations.ResetLeavesRegistersUnset : Prop :=
  State.reset.chan = 0 ∧ State.reset.resetCycle = none ∧ State.reset.dbCount = 0 ∧
    State.reset.lastTstamp = none ∧ State.reset.lastDelay = none ∧ State.reset.lastAccum = none ∧
    State.reset.flags = [false, false, false, false]

/-- R35, R79: INIT puts every register to its constructed value from any state, cannot fault, and answers one word. -/
def Obligations.InitConstructsTheDecoder : Prop :=
  ∀ (chan : BitVec 32) (s : State),
    exec (.init chan) s =
      .next { chan := chan.toNat, resetCycle := none, dbCount := 0, lastTstamp := none, lastDelay := none, lastAccum := none,
              cmdPort := s.cmdPort, rspPort := s.rspPort ++ [.ok] } ∧
    Response.ok.frame = [0x10000000#32]

/-- After an INIT nothing before it can be seen: two instances in any two states that run the same command words beginning
with INIT give the same responses and registers, however far they run (R121, R27). -/
def Obligations.InitForgetsThePast : Prop :=
  ∀ (chan : BitVec 32) (ws : List Word) (s t s' : State) (n : Nat),
    s.cmdPort = encode (.init chan) ++ ws → t.cmdPort = encode (.init chan) ++ ws → run (n + 1) s = .next s' →
    ∃ t' rs, run (n + 1) t = .next t' ∧ SameRegisters s' t' ∧ t'.cmdPort = s'.cmdPort ∧
      s'.rspPort = s.rspPort ++ rs ∧ t'.rspPort = t.rspPort ++ rs

/-- R241: an operation after hardware reset with no INIT behaves as after `INIT 0`: the same registers, the same response. -/
def Obligations.ResetIsInitZero : Prop :=
  ∃ s0 : State, exec (.init 0#32) State.reset = .next s0 ∧ SameRegisters State.reset s0 ∧
    ∀ i : Instr, ∃ t u r, exec i State.reset = .next t ∧ exec i s0 = .next u ∧ SameRegisters t u ∧
      t.rspPort = [r] ∧ u.rspPort = s0.rspPort ++ [r]

/-! DCS (42_cycle_start.md). -/

/-- R80, R131: DCS completes from any state, changes no register, and answers the full seven and thirteen bits in two words;
the low twelve bits of the operand have no effect. -/
def Obligations.DcsAnswersBothFields : Prop :=
  ∀ (raw32 : BitVec 32) (s : State), ∃ (second : BitVec 7) (cycle : BitVec 13) (q1 : Word),
    exec (.dcs raw32) s = .next { s with rspPort := s.rspPort ++ [.position second cycle] } ∧
    second.toNat = raw32.toNat / 2 ^ 25 ∧ cycle.toNat = raw32.toNat / 2 ^ 12 % 2 ^ 13 ∧
    (Response.position second cycle).frame = [0x20000000#32, q1] ∧
    q1.extractLsb' 16 7 = second ∧ q1.extractLsb' 0 13 = cycle ∧ q1.extractLsb' 13 3 = 0#3 ∧ q1.extractLsb' 23 9 = 0#9

/-- R133: DCS inverts the packing of a second and a cycle, whatever the low twelve bits. -/
def Obligations.DcsInvertsThePacking : Prop :=
  ∀ (second : BitVec 7) (cycle : BitVec 13) (x : BitVec 12) (s : State),
    exec (.dcs ((second.setWidth 32 <<< 25) ||| (cycle.setWidth 32 <<< 12) ||| x.setWidth 32)) s =
      .next { s with rspPort := s.rspPort ++ [.position second cycle] }

/-- The two fields are the source's masks and shifts: `(raw32 & S_MASK) >> 25` and `(raw32 & C_MASK) >> 12` (R83, R130). -/
def Obligations.DcsFieldsAreTheMaskedShifts : Prop :=
  ∀ raw32 : Word, (cycleStartSecond raw32).setWidth 32 = (raw32 &&& sMask) >>> 25 ∧
    (cycleStartCycle raw32).setWidth 32 = (raw32 &&& cMask) >>> 12

/-! DPK: faults and the data-block counter (43_decode_packet.md sections 1, 2, 7; 60_exceptions.md). -/

/-- R162: the faults of DPK in the order they are tested, each leaving every register as it was; with none of them the
packet completes with a record. The first packet cannot overflow the counter, since it reports 0 (R143, R145). -/
def Obligations.DpkFaultsInOrder : Prop :=
  ∀ (s : State) (w0 q cip0 cip1 : Word) (rest : List Word), s.cmdPort = w0 :: q :: cip0 :: cip1 :: rest →
    w0.extractLsb' 28 4 = 0x3#4 →
    ∃ t r, step s = .next t ∧ t.rspPort = s.rspPort ++ [r] ∧
      if w0.extractLsb' 24 4 ≠ 0#4 then r = .fault 0x3#4 .illegalCommand ∧ SameRegisters s t
      else if q.toNat < 2 then r = .fault 0x3#4 .shortPayload ∧ SameRegisters s t
      else if cip0.extractLsb' 16 8 = 0#8 then r = .fault 0x3#4 .dbsZero ∧ SameRegisters s t
      else if s.resetCycle.isSome ∧ 2 ^ itdConfig.wDb ≤ s.dbCount + (q.toNat - 2) / (cip0.extractLsb' 16 8).toNat then
        r = .fault 0x3#4 .counterOverflow ∧ SameRegisters s t
      else if cip1.extractLsb' 0 16 ≠ 0xffff#16 ∧ rateOf itdConfig (cip1.extractLsb' 16 8) = none then
        r = .fault 0x3#4 (.unsupportedRate (cip1.extractLsb' 16 8)) ∧ SameRegisters s t
      else ∃ rec, r = .record rec

/-- R142: the quotient of step 1 and the two inputs that have none, with or without a timestamp. -/
def Obligations.DataBlocksOfAPayload : Prop :=
  ∀ (p : Packet) (s : State),
    (p.quadsPerPayload.toNat < 2 →
      exec p.instr s = .next { s with rspPort := s.rspPort ++ [.fault 0x3#4 .shortPayload] }) ∧
    (2 ≤ p.quadsPerPayload.toNat → p.cip0.extractLsb' 16 8 = 0#8 →
      exec p.instr s = .next { s with rspPort := s.rspPort ++ [.fault 0x3#4 .dbsZero] }) ∧
    (2 ≤ p.quadsPerPayload.toNat → p.cip0.extractLsb' 16 8 ≠ 0#8 →
      ∀ t rec, exec p.instr s = .next t → t.rspPort = s.rspPort ++ [.record rec] →
        rec.dbsPerPayload = (p.quadsPerPayload.toNat - 2) / (p.cip0.extractLsb' 16 8).toNat ∧
        rec.dbsPerPayload ≤ 2 ^ 32 - 3)

/-- R143: the first packet sets `RESET_CYCLE` to its whole `cycle` operand, reports 0 and leaves the counter 0, with or
without a timestamp. -/
def Obligations.FirstPacketIsNotCounted : Prop :=
  ∀ (p : Packet) (s : State), s.resetCycle = none → HasQuotient p → (p.syt = noSyt ∨ (rateOf itdConfig p.sfc).isSome = true) →
    ∃ t rec, exec p.instr s = .next t ∧ t.resetCycle = some p.cycle ∧ t.dbCount = 0 ∧
      t.rspPort = s.rspPort ++ [.record rec] ∧ rec.dbCount = 0

/-- R144: a later packet reports the accumulated count; the running counter goes back to 0 exactly when the cycle matches;
`RESET_CYCLE` never changes. -/
def Obligations.LaterPacketAccumulates : Prop :=
  ∀ (p : Packet) (s : State) (rc : BitVec 16), s.resetCycle = some rc → HasQuotient p → s.dbCount + quotient p < 2 ^ 64 →
    (p.syt = noSyt ∨ (rateOf itdConfig p.sfc).isSome = true) →
    ∃ t rec, exec p.instr s = .next t ∧ t.resetCycle = some rc ∧ t.rspPort = s.rspPort ++ [.record rec] ∧
      rec.dbCount = s.dbCount + quotient p ∧ t.dbCount = if p.cycle = rc then 0 else s.dbCount + quotient p

/-- For every configuration, a reported count that does not fit `W_DB` bits faults and writes nothing, and one that fits never
raises that fault (R145, D9). -/
def Obligations.CounterOverflowAtAnyWidth : Prop :=
  ∀ (c : Config) (p : Packet) (s : State), HasQuotient p →
    if reportedCount p s < 2 ^ c.wDb then
      (runPacket c p s).rspPort ≠ s.rspPort ++ [.fault 0x3#4 .counterOverflow]
    else runPacket c p s = { s with rspPort := s.rspPort ++ [.fault 0x3#4 .counterOverflow] }

/-- R146: a packet with no timestamp completes, commits the data-block state only, and does not look its rate code up. -/
def Obligations.UntimedPacketCommitsBlocksOnly : Prop :=
  ∀ (p : Packet) (s : State), p.cip1.extractLsb' 0 16 = 0xffff#16 → BlocksCounted p s →
    exec p.instr s = .next
      { s with
        resetCycle := some (s.resetCycle.getD p.cycle)
        dbCount := runningCount p s
        rspPort := s.rspPort ++ [.record { ts := none, dbsPerPayload := quotient p, dbCount := reportedCount p s }] }

/-- R160: a packet with a timestamp and a known rate completes and writes every register but `CHAN` together, with the values
the rules of sections 3 to 5 give, and its record carries them. The 147 sub-ticks to a tick and the counter of 64 bits are the
spec's defaults (log entries 10 and 12). -/
def Obligations.TimedPacketCommitsEverything : Prop :=
  ∀ (p : Packet) (s : State) (r : RateRow), p.cip1.extractLsb' 0 16 ≠ 0xffff#16 → BlocksCounted p s →
    rateOf itdConfig (p.cip1.extractLsb' 16 8) = some r →
    let clock := carry p.sec.toNat (splice itdConfig p.cycle.toNat p.sytCycle)
    let tstamp := tick clock.1 clock.2 p.tOffset
    let delay := fwd (tick (p.sec.toNat % 8) p.cycle.toNat 0) tstamp
    let accum := s.lastAccum.elim (tstamp * 147) fun last => (last + increment itdConfig r) % 28901376000
    exec p.instr s = .next
      { s with
        resetCycle := some (s.resetCycle.getD p.cycle)
        dbCount := runningCount p s
        lastTstamp := some tstamp
        lastDelay := some delay
        lastAccum := some accum
        rspPort := s.rspPort ++ [.record
          { ts := some
              { tSec := clock.1
                tCycle := clock.2
                tOffset := p.tOffset
                tstamp := tstamp
                elapse := s.lastTstamp.elim 0 fun last => fwd last tstamp
                delay := delay
                delayGap := s.lastDelay.elim 0 fun last => gap3072 last delay
                accumDiff := ⟨s.lastAccum.elim 0 fun _ => cdiff itdConfig accum (tstamp * 147), 147⟩ }
            dbsPerPayload := quotient p
            dbCount := reportedCount p s }] }

/-- The frame of DPK (R24, R146, R216): it keeps `CHAN` and the words still waiting and answers once; without a timestamp it
keeps the three timestamp registers, and answering a fault it keeps every register. -/
def Obligations.DpkFrame : Prop :=
  ∀ (p : Packet) (s t : State), exec p.instr s = .next t →
    t.chan = s.chan ∧ t.cmdPort = s.cmdPort ∧
    (p.syt = noSyt → t.lastTstamp = s.lastTstamp ∧ t.lastDelay = s.lastDelay ∧ t.lastAccum = s.lastAccum) ∧
    ∃ r, t.rspPort = s.rspPort ++ [r] ∧ ((∃ rec, r = .record rec) ∨ (∃ f, r = .fault 0x3#4 f) ∧ SameRegisters s t)

/-- Only the fields the rules read matter: two DPKs that agree on `sec` modulo 8, `cycle`, the payload size, `quads_per_db`,
`syt` and `sfc` are one operation (R84, R85, R87, R163 case f). -/
def Obligations.UnreadOperandBitsAreIgnored : Prop :=
  ∀ (p p' : Packet) (s : State), p.quadsPerPayload = p'.quadsPerPayload → p.sec.toNat % 8 = p'.sec.toNat % 8 →
    p.cycle = p'.cycle → p.cip0.extractLsb' 16 8 = p'.cip0.extractLsb' 16 8 →
    p.cip1.extractLsb' 0 24 = p'.cip1.extractLsb' 0 24 → exec p.instr s = exec p'.instr s

/-! The clock arithmetic (40_clock_arith.md) and what DPK makes of it. -/

/-- R101: the composition, its range and inverse inside the clock domain, and what a 12-bit offset can reach. -/
def Obligations.TickIsRecovered : Prop :=
  (∀ s c o : Nat, tick s c o = (s * 8000 + c) * 3072 + o) ∧
  (∀ s c o : Nat, s < 8 → c < 8000 → o < 3072 →
    tick s c o < 196608000 ∧ tick s c o % 3072 = o ∧ tick s c o / 3072 % 8000 = c ∧ tick s c o / 24576000 = s) ∧
  tick 7 7999 4095 = 196609023 ∧ tick 0 0 3072 = tick 0 1 0

/-- R104: what `splice` computes with the addend 14: the arrival block, the next block, or, in the one corner where 14 is not
16, the arrival block again. -/
def Obligations.SpliceFindsTheCycle : Prop :=
  ∀ cycle sytCycle : Nat, sytCycle ≤ 15 →
    let n := cycle % 16
    let b := cycle - n
    (n ≤ sytCycle → splice itdConfig cycle sytCycle = (b &&& 0x1ff0) + sytCycle) ∧
    (sytCycle < n → 2 ≤ n → splice itdConfig cycle sytCycle = ((b + 16) &&& 0x1ff0) + sytCycle) ∧
    (sytCycle < n → n = 1 → sytCycle = 0 ∧ splice itdConfig cycle sytCycle = b &&& 0x1ff0 ∧
      splice { itdConfig with rollAdd := 16 } cycle sytCycle = (b + 16) &&& 0x1ff0)

/-- R149: the carry into the second, its range, and when a well-formed arrival can carry. -/
def Obligations.CarryOnlyNearTheEndOfASecond : Prop :=
  ∀ p : Packet,
    let c := splice itdConfig p.cycle.toNat p.sytCycle
    reconstructCycle itdConfig p = (if 8000 ≤ c then ((p.sec.toNat + 1) % 8, c - 8000) else (p.sec.toNat % 8, c)) ∧
    (reconstructCycle itdConfig p).1 ≤ 7 ∧ (reconstructCycle itdConfig p).2 ≤ 7999 ∧
    (p.cycle.toNat ≤ 7999 → 8000 ≤ c → 7986 ≤ p.cycle.toNat ∧ p.sytCycle < p.cycle.toNat % 16)

/-- The two arms of `fwd` for all operands; inside the tick domain it is the forward circular distance; for operands further
apart than the domain it is negative, or `T` or more (R105, R106). -/
def Obligations.ForwardDistanceIsModular : Prop :=
  (∀ a b : Int, (a ≤ b → fwd a b = b - a) ∧ (b < a → fwd a b = 196608000 + (b - a))) ∧
  (∀ a b : Int, 0 ≤ a → a < 196608000 → 0 ≤ b → b < 196608000 →
    fwd a b = (b - a) % 196608000 ∧ 0 ≤ fwd a b ∧ fwd a b < 196608000) ∧
  (∀ a b : Int, b < a - 196608000 → fwd a b < 0) ∧ (∀ a b : Int, a + 196608000 ≤ b → 196608000 ≤ fwd a b) ∧
  (∀ a : Int, fwd a a = 0)

/-- R107: every case of the gap in the offset domain, and exactly when the source's range property holds. -/
def Obligations.OffsetGapCases : Prop :=
  ∀ p q : Int,
    (p < q → gap3072 p q = q - p) ∧ (q ≤ p → gap3072 p q = 3072 + q - p) ∧
    (0 < q - p → q - p < 3072 → 0 < gap3072 p q ∧ gap3072 p q < 3072) ∧
    (-3072 ≤ q - p → q - p < 0 → gap3072 p q = (q - p) % 3072) ∧
    (q = p → gap3072 p q = 3072) ∧ (3072 ≤ q - p → 3072 ≤ gap3072 p q) ∧ (q - p < -3072 → gap3072 p q < 0) ∧
    (0 ≤ gap3072 p q ∧ gap3072 p q < 3072 ↔ -3072 ≤ q - p ∧ q - p < 3072 ∧ q ≠ p)

/-- The arms of the shortest circular difference on rationals, for every operand, and a condition under which it is shortest
(R108, R159). The last arm but one is reached when a timestamp is `T` or more. -/
def Obligations.CircularDifferenceCases : Prop :=
  ∀ (a : ℚ) (t : ℤ),
    (-98304000 < a - t → a - t < 98304000 → rationalCdiff a t = a - t) ∧
    (-196608000 < a - t → a - t < -98304000 →
      rationalCdiff a t = 196608000 + (a - t) ∧ 0 < rationalCdiff a t ∧ rationalCdiff a t < 98304000) ∧
    (a - t = -98304000 → rationalCdiff a t = 98304000) ∧
    (98304000 ≤ a - t → rationalCdiff a t = 196608000 + (a - t) ∧ 294912000 ≤ rationalCdiff a t) ∧
    (a - t ≤ -196608000 → rationalCdiff a t = 196608000 + (a - t) ∧ rationalCdiff a t ≤ 0) ∧
    (-196608000 < a - t → a - t < 98304000 → a - t ≠ -98304000 → |rationalCdiff a t| < 98304000)

/-- The default rate table: which codes it has, its increments in sub-ticks and their denominator (R110, R112; six of its
rows are the spec's general knowledge, log entry 10). -/
def Obligations.DefaultRatesAndIncrements : Prop :=
  subtickDen itdConfig = 147 ∧ subtickDomain itdConfig = 28901376000 ∧
  (∀ sfc : BitVec 8, (rateOf itdConfig sfc).isSome = true ↔ sfc.toNat ≤ 0x06) ∧
  rateOf itdConfig 0x02#8 = some ⟨0x02#8, 48000, 8⟩ ∧
  [0x00#8, 0x01#8, 0x02#8, 0x03#8, 0x04#8, 0x05#8, 0x06#8].map (fun sfc => (rateOf itdConfig sfc).map (increment itdConfig)) =
    [some 903168, some 655360, some 602112, some 655360, some 602112, some 655360, some 602112]

/-- The accumulator stays in the tick domain, and its reduction is at most one subtraction of `T` (R113; 147 sub-ticks to a tick
is the default rate table's, log entry 10). -/
def Obligations.AccumulatorReducesOnce : Prop :=
  ∀ (last : Nat) (r : RateRow), last ≤ 196609023 * 147 → r ∈ itdConfig.rateTable →
    advance itdConfig last r = (last + increment itdConfig r) % 28901376000 ∧ advance itdConfig last r < 28901376000 ∧
    (advance itdConfig last r = last + increment itdConfig r ∨
      advance itdConfig last r + 28901376000 = last + increment itdConfig r)

/-- For every configuration the sub-tick arithmetic of DPK is the spec's exact rational arithmetic: the new accumulator is
the old one plus `INC`, reduced, and the record's drift is the circular difference, with nothing rounded (R111 to R113,
R157, R158). -/
def Obligations.DriftIsExactRationalArithmetic : Prop :=
  ∀ (c : Config) (p : Packet) (s : State) (r : RateRow) (b : BlockCount) (last : Nat), c.wellFormed = true →
    countBlocks c p s = .ok b → p.syt ≠ noSyt → rateOf c p.sfc = some r → s.lastAccum = some last →
    ∃ accum rec side, (runPacket c p s).lastAccum = some accum ∧
      (runPacket c p s).rspPort = s.rspPort ++ [.record rec] ∧ rec.ts = some side ∧ side.accumDiff.den = subtickDen c ∧
      ticksOfSubticks c accum = rationalAdvance (ticksOfSubticks c last) r ∧
      ticksOfSubticks c side.accumDiff.num = rationalCdiff (ticksOfSubticks c accum) (tstampOf c p)

/-- The accumulator is free-running: over any stream of packets on any build, once it is set it advances by one increment for
each packet that commits with a timestamp, by nothing for a fault or a packet without one, and is never set back to a
timestamp (R157, R249, R250). -/
def Obligations.AccumulatorIsFreeRunning : Prop :=
  ∀ (c : Config) (ps : List Packet) (s : State) (a : Nat), s.lastAccum = some a →
    ∃ v, (runPackets c ps s).lastAccum = some v ∧
      v % subtickDomain c = (a + accumulatorSteps c ps s) % subtickDomain c

/-- For every rate table with the source's row (48000 Hz, interval 8), a packet of that code whose timestamp is 4096 ticks on
from the prediction has drift 0 (R159, the source's end-to-end property; D29). -/
def Obligations.RegularStepHasNoDrift : Prop :=
  ∀ (c : Config) (p : Packet) (s : State) (r : RateRow) (b : BlockCount) (a : Nat), c.wellFormed = true →
    countBlocks c p s = .ok b → p.syt ≠ noSyt → rateOf c p.sfc = some r → r.rate = 48000 → r.sytInterval = 8 →
    s.lastAccum = some (a * subtickDen c) → tstampOf c p = (a + 4096) % 196608000 →
    ∃ rec side, (runPacket c p s).rspPort = s.rspPort ++ [.record rec] ∧ rec.ts = some side ∧ side.accumDiff.num = 0

/-- The first valid record is a baseline: `elapse`, `delay_gap` and the drift are 0 (R163 case b, R247). -/
def Obligations.FirstValidRecordIsABaseline : Prop :=
  ∀ (p : Packet) (s t : State) (rec : Record) (side : TimestampSide),
    s.lastTstamp = none → s.lastDelay = none → s.lastAccum = none → exec p.instr s = .next t →
    t.rspPort = s.rspPort ++ [.record rec] → rec.ts = some side →
    side.elapse = 0 ∧ side.delayGap = 0 ∧ side.accumDiff.num = 0

/-- The same valid packet twice: the second has `elapse = 0` and `delay_gap = 3072` (R56, R163 case c). -/
def Obligations.SamePacketTwice : Prop :=
  ∀ (p : Packet) (s t u : State) (rec1 rec2 : Record), exec p.instr s = .next t →
    t.rspPort = s.rspPort ++ [.record rec1] → p.syt ≠ noSyt → exec p.instr t = .next u →
    u.rspPort = t.rspPort ++ [.record rec2] →
    ∃ side, rec2.ts = some side ∧ side.elapse = 0 ∧ side.delayGap = 3072

/-- Between two timestamps of the tick domain `elapse` is the forward circular distance (R106, the source's property). -/
def Obligations.ElapseIsForwardDistance : Prop :=
  ∀ (p : Packet) (s t : State) (rec : Record) (side : TimestampSide) (last : Nat), s.lastTstamp = some last →
    last < 196608000 → p.tOffset < 3072 → exec p.instr s = .next t → t.rspPort = s.rspPort ++ [.record rec] →
    rec.ts = some side →
    side.tstamp < 196608000 ∧ side.elapse = ((side.tstamp : Int) - last) % 196608000 ∧ 0 ≤ side.elapse ∧
      side.elapse < 196608000

/-! Invariants (10_state.md section 2) and rules about every operation. -/

/-- The reset state has the invariants R25, R26 and the ranges R20 and R28, on every build. -/
def Obligations.InvariantsHoldAtReset : Prop := ∀ c : Config, Inv c State.reset

/-- Every step keeps the invariants: equal timestamp flags (R25), a fresh counter before the first packet (R26), and every
stored value in its range (R20, R28); of the machine, and of an instance built with any configuration (R10). -/
def Obligations.EveryStepKeepsTheInvariants : Prop :=
  (∀ s t : State, Inv itdConfig s → step s = .next t → Inv itdConfig t) ∧
  ∀ (c : Config) (s t : State), c.wellFormed = true → Inv c s → stepWith c s = .next t → Inv c t

/-- A packet keeps the invariants on an instance of any configuration: any rate table, rollover addend and counter width. -/
def Obligations.PacketsKeepTheInvariantsAtAnyConfig : Prop :=
  ∀ (c : Config) (p : Packet) (s : State), c.wellFormed = true → Inv c s → Inv c (runPacket c p s)

/-- R28: the ranges of the stored values in every reachable state, and the narrower ones for packets inside the clock
domain; an accumulator is in sub-ticks of the default rate table, 147 to a tick (log entry 10). -/
def Obligations.StoredValuesStayInRange : Prop :=
  (∀ s : State, Reachable s →
    (∀ v, s.lastTstamp = some v → v ≤ 196609023) ∧
    (∀ d, s.lastDelay = some d → -176747520 ≤ d ∧ d ≤ 196609023) ∧
    (∀ a, s.lastAccum = some a → a ≤ 196609023 * 147)) ∧
  ∀ (p : Packet) (s t : State) (rec : Record), exec p.instr s = .next t → t.rspPort = s.rspPort ++ [.record rec] →
    p.syt ≠ noSyt →
    (p.tOffset < 3072 → ∃ v, t.lastTstamp = some v ∧ v < 196608000) ∧
    (p.tOffset < 3072 → p.cycle.toNat < 8000 → ∃ d, t.lastDelay = some d ∧ 0 ≤ d ∧ d < 196608000) ∧
    (s.lastAccum ≠ none → ∃ a, t.lastAccum = some a ∧ a < 196608000 * 147)

/-- R29: no stored value overflows the register R21 gives it, in any reachable state, with the default rate table and counter
width (log entries 10 and 12). -/
def Obligations.NoRegisterOverflows : Prop :=
  ∀ s : State, Reachable s →
    s.chan < 2 ^ 32 ∧ s.dbCount < 2 ^ 64 ∧ (∀ v, s.lastTstamp = some v → v < 2 ^ 28) ∧
    (∀ d, s.lastDelay = some d → -(2 ^ 31) ≤ d ∧ d < 2 ^ 31) ∧ (∀ a, s.lastAccum = some a → a < 2 ^ 35)

/-- R216: whatever the fault, every register is after the operation what it was before. -/
def Obligations.FaultsWriteNothing : Prop :=
  ∀ (s t : State) (op : BitVec 4) (f : ItdFault), step s = .next t → t.rspPort = s.rspPort ++ [.fault op f] →
    SameRegisters s t

/-- R27: no flag goes from 1 to 0 except by INIT. -/
def Obligations.FlagsFallOnlyByInit : Prop :=
  ∀ s t : State, step s = .next t →
    (∃ chan rest, decode s.cmdPort = .command (.init chan) rest) ∨
      ((s.resetCycleV = true → t.resetCycleV = true) ∧ (s.lastTstampV = true → t.lastTstampV = true) ∧
        (s.lastDelayV = true → t.lastDelayV = true) ∧ (s.lastAccumV = true → t.lastAccumV = true))

/-- R23: `CHAN` is written by INIT and by nothing else, and nothing reads it: a run from two states that differ in `CHAN`
alone ends in states that differ in `CHAN` alone, with the same responses. -/
def Obligations.ChanIsWrittenByInitAndReadByNothing : Prop :=
  (∀ s t : State, step s = .next t → t.chan ≠ s.chan →
    ∃ chan rest, decode s.cmdPort = .command (.init chan) rest ∧ t.chan = chan.toNat) ∧
  (∀ (n : Nat) (s s' : State) (v : Nat), run n s = .next s' →
    ∃ v', run n { s with chan := v } = .next { s' with chan := v' })

/-! Responses (30_encoding.md section 2). -/

/-- No response field overflows: from every state with the invariants, the host reads back from the frame exactly the
response the operation gave (R81 and the ranges under it). -/
def Obligations.ResponseFramesLoseNothing : Prop :=
  ∀ (s t : State) (r : Response), Inv itdConfig s → step s = .next t → t.rspPort = s.rspPort ++ [r] →
    readResponse 147 r.frame = some r

/-- The response header of every response: the zero bits, `tsv`, and a fault's frame is its header alone (R78); the lengths
1, 2, 11 and 1 (R79 to R82). -/
def Obligations.ResponseHeaderLayout : Prop :=
  ∀ r : Response, ∃ q0 qs, r.frame = q0 :: qs ∧ q0.extractLsb' 1 15 = 0#15 ∧
    (q0.getLsbD 0 = true ↔ ∃ rec, r = .record rec ∧ rec.ts ≠ none) ∧
    (q0.extractLsb' 24 4 = 0#4 → q0.extractLsb' 16 8 = 0#8) ∧ (q0.extractLsb' 24 4 ≠ 0#4 ↔ ∃ op f, r = .fault op f) ∧
    (qs.length = match r with
      | .ok => 0
      | .position _ _ => 1
      | .record _ => 10
      | .fault _ _ => 0)

/-- R82: a fault response is one word: the command's number, the code, the information byte, every other bit zero. -/
def Obligations.FaultResponseIsOneWord : Prop :=
  ∀ (op : BitVec 4) (f : ItdFault), ∃ q0 : Word, (Response.fault op f).frame = [q0] ∧ q0.extractLsb' 28 4 = op ∧
    q0.extractLsb' 0 16 = 0#16 ∧
    (q0.extractLsb' 24 4, q0.extractLsb' 16 8) =
      match f with
      | .unsupportedRate sfc => (1#4, sfc)
      | .dbsZero => (2#4, 0#8)
      | .shortPayload => (3#4, 0#8)
      | .illegalCommand => (4#4, 0#8)
      | .counterOverflow => (5#4, 0#8)

/-! The text contract (44_row_format.md). -/

/-- When every value fits its column the row is 65 characters long and its bars stand at positions 13, 30, 43 and 54; the
header and the separator are as long, with their bars at the same positions (R190 to R193, R195). -/
def Obligations.FittingRowIsAligned : Prop :=
  (∀ line ∈ [headerLine, separatorLine], line.toList.length = 65 ∧ line.toList[13]? = some '|' ∧ line.toList[30]? = some '|' ∧
    line.toList[43]? = some '|' ∧ line.toList[54]? = some '|') ∧
  ∀ (r : Record) (t : TimestampSide), r.ts = some t →
    t.tSec < 100 → t.tCycle < 10000 → t.tOffset < 10000 → t.tstamp < 1000000000 → -999 ≤ t.elapse → t.elapse ≤ 9999 →
    -9999 ≤ t.delay → t.delay ≤ 99999 → -999 ≤ t.delayGap → t.delayGap ≤ 9999 → -999999 ≤ hundredths t.accumDiff →
    hundredths t.accumDiff ≤ 9999999 → r.dbsPerPayload < 100 → r.dbCount < 1000000 →
    (rowChars r).length = 65 ∧ (rowChars r)[13]? = some '|' ∧ (rowChars r)[30]? = some '|' ∧
      (rowChars r)[43]? = some '|' ∧ (rowChars r)[54]? = some '|'

/-- R194: the row of a record with no timestamp is the separator's first 56 characters and the two numbers. -/
def Obligations.AbsentRowIsDashed : Prop :=
  ∀ n m : Nat, row { ts := none, dbsPerPayload := n, dbCount := m } =
    String.ofList (separatorLine.toList.take 56 ++ intColumn 2 n ++ [' '] ++ intColumn 6 m)

/-- The drift column rounds to the nearest hundredth, a tie to the even one; with 147 sub-ticks no tie and no `-0.00` occurs
(R196). -/
def Obligations.DriftRoundsToNearest : Prop :=
  ∀ d : SubTicks, 0 < d.den →
    2 * |100 * d.num - hundredths d * d.den| ≤ d.den ∧
    (2 * |100 * d.num - hundredths d * d.den| = d.den → hundredths d % 2 = 0) ∧
    (d.den = 147 → 2 * |100 * d.num - hundredths d * d.den| ≠ d.den ∧ (d.num ≠ 0 → hundredths d ≠ 0))

/-! Several instances (20_memory.md R60). -/

/-- R60: operations on different instances commute, and under any interleaving each instance goes through exactly the states
and responses of its own run alone. -/
def Obligations.InstancesAreIndependent : Prop :=
  (∀ (p : Platform) (j k : Nat), j ≠ k → (p.stepAt j).bind (Platform.stepAt k) = (p.stepAt k).bind (Platform.stepAt j)) ∧
  (∀ (ks : List Nat) (p q : Platform), Platform.runSchedule ks p = some q → q.length = p.length ∧
    ∀ (j : Nat) (x : Instance), p[j]? = some x → ∃ t, q[j]? = some ⟨x.config, t⟩ ∧
      runWith x.config (ks.count j) x.state = .next t)

end
end

