-- ==== Sys2Proof/Laws/Params.lean ====
section
/-! SUPPORT. The constants of the clock domain as numerals (00_scope.md R9, R10), and that this row's configuration is one. -/

namespace Sys2Proof.Machine

@[simp] theorem offsetMax_eq : offsetMax = 3072 := rfl
@[simp] theorem cycleMax_eq : cycleMax = 8000 := rfl
@[simp] theorem secMax_eq : secMax = 8 := rfl
@[simp] theorem tickDomain_eq : tickDomain = 196608000 := rfl
@[simp] theorem ticksPerRealSecond_eq : ticksPerRealSecond = 24576000 := rfl
@[simp] theorem halfDomain_eq : halfDomain = 98304000 := rfl

theorem itdConfig_wellFormed : itdConfig.wellFormed = true := by decide

theorem rate_pos_of_wellFormed {c : Config} (h : c.wellFormed = true) {r : RateRow} (hr : r ∈ c.rateTable) : 0 < r.rate := by
  simp only [Config.wellFormed, Bool.and_eq_true, List.all_eq_true, decide_eq_true_eq] at h
  exact (h.1.1.1 r hr).1

theorem wDb_le_of_wellFormed {c : Config} (h : c.wellFormed = true) : c.wDb ≤ 64 := by
  simp only [Config.wellFormed, Bool.and_eq_true, decide_eq_true_eq] at h
  exact h.1.2

end Sys2Proof.Machine
end

