-- ==== Sys2Proof/Laws/Clock.lean ====
section
/-! SUPPORT. What each function of the clock arithmetic engine can do, said once (40_clock_arith.md). -/

namespace Sys2Proof.Machine

theorem splice_le (c : Config) (cycle : Nat) {sytCycle : Nat} (h : sytCycle ≤ 15) : splice c cycle sytCycle ≤ 8191 := by
  have hle : ∀ t : Nat, (t &&& 0x1ff0) ||| sytCycle < 2 ^ 13 := fun t =>
    Nat.or_lt_two_pow (lt_of_le_of_lt Nat.and_le_right (by norm_num)) (by omega)
  have := hle (if sytCycle < cycle &&& 0xf then cycle + c.rollAdd else cycle)
  simp only [splice]
  omega

theorem carry_fst_lt (sec cycle : Nat) : (carry sec cycle).1 < 8 := by
  by_cases h : cycleMax ≤ cycle <;> simp only [carry, h, if_true, if_false] <;> exact Nat.mod_lt _ (by decide)

theorem carry_snd_lt (sec cycle : Nat) : (carry sec cycle).2 < 8000 := by
  by_cases h : cycleMax ≤ cycle <;> simp only [carry, h, if_true, if_false]
  · exact Nat.mod_lt _ (by decide)
  · exact Nat.lt_of_not_le h

theorem tick_eq (sec cycle offset : Nat) : tick sec cycle offset = (sec * 8000 + cycle) * 3072 + offset := rfl

theorem tick_lt_domain {sec cycle offset : Nat} (hs : sec < 8) (hc : cycle < 8000) (ho : offset < 3072) :
    tick sec cycle offset < tickDomain := by
  simp only [tick_eq, tickDomain_eq]; omega

theorem tick_le_max {sec cycle offset : Nat} (hs : sec < 8) (hc : cycle < 8000) (ho : offset < 4096) :
    tick sec cycle offset ≤ 196609023 := by
  simp only [tick_eq]; omega

/-- Everything `fwd` can answer (R105). -/
theorem fwd_cases (a b : Int) : (a ≤ b ∧ fwd a b = b - a) ∨ (b < a ∧ fwd a b = 196608000 + (b - a)) := by
  simp only [fwd, tickDomain_eq]
  split
  · exact .inl ⟨by omega, rfl⟩
  · exact .inr ⟨by omega, rfl⟩

/-- Everything `gap3072` can answer (R107). -/
theorem gap3072_cases (p q : Int) : (p < q ∧ gap3072 p q = q - p) ∨ (q ≤ p ∧ gap3072 p q = 3072 + q - p) := by
  simp only [gap3072, offsetMax_eq]
  split
  · exact .inl ⟨‹_›, rfl⟩
  · exact .inr ⟨by omega, rfl⟩

/-- Everything `cdiff` can answer (R108). -/
theorem cdiff_cases (c : Config) (a t : Int) :
    ((a - t).natAbs < 98304000 * subtickDen c ∧ cdiff c a t = a - t) ∨
      (98304000 * subtickDen c ≤ (a - t).natAbs ∧ cdiff c a t = subtickDomain c + (a - t)) := by
  by_cases h : (a - t).natAbs < halfDomain * subtickDen c
  · exact .inl ⟨h, by simp only [cdiff, h, if_true]⟩
  · exact .inr ⟨Nat.le_of_not_lt h, by simp only [cdiff, h, if_false]⟩

theorem rateOf_mem {c : Config} {sfc : BitVec 8} {r : RateRow} (h : rateOf c sfc = some r) : r ∈ c.rateTable :=
  List.mem_of_find?_eq_some h

theorem rateOf_code {c : Config} {sfc : BitVec 8} {r : RateRow} (h : rateOf c sfc = some r) : r.code = sfc := by
  simpa using List.find?_some h

theorem incrementDen_dvd_foldr {rows : List RateRow} {r : RateRow} (hr : r ∈ rows) :
    incrementDen r ∣ rows.foldr (fun r d => Nat.lcm (incrementDen r) d) 1 := by
  induction rows with
  | nil => cases hr
  | cons x xs ih =>
    rcases List.mem_cons.1 hr with rfl | h
    · exact Nat.dvd_lcm_left _ _
    · exact (ih h).trans (Nat.dvd_lcm_right _ _)

theorem incrementDen_dvd {c : Config} {r : RateRow} (hr : r ∈ c.rateTable) : incrementDen r ∣ subtickDen c :=
  incrementDen_dvd_foldr hr

theorem incrementDen_pos {r : RateRow} (h : 0 < r.rate) : 0 < incrementDen r :=
  Nat.div_pos (Nat.le_of_dvd h (Nat.gcd_dvd_right _ _)) (Nat.gcd_pos_of_pos_right _ h)

theorem foldr_lcm_pos {rows : List RateRow} (h : ∀ r ∈ rows, 0 < r.rate) :
    0 < rows.foldr (fun r d => Nat.lcm (incrementDen r) d) 1 := by
  induction rows with
  | nil => exact Nat.one_pos
  | cons x xs ih =>
    exact Nat.lcm_pos (incrementDen_pos (h x List.mem_cons_self)) (ih fun r hr => h r (List.mem_cons_of_mem _ hr))

theorem subtickDen_pos {c : Config} (h : c.wellFormed = true) : 0 < subtickDen c :=
  foldr_lcm_pos fun _ hr => rate_pos_of_wellFormed h hr

@[simp] theorem subtickDen_itdConfig : subtickDen itdConfig = 147 := by decide

theorem subtickDomain_eq (c : Config) : subtickDomain c = 196608000 * subtickDen c := rfl

/-- The increment is a whole number of sub-ticks: multiplying back by the rate loses nothing (R111, R112). -/
theorem increment_mul_rate {c : Config} {r : RateRow} (hr : r ∈ c.rateTable) :
    increment c r * r.rate = 24576000 * r.sytInterval * subtickDen c := by
  obtain ⟨k, hk⟩ := incrementDen_dvd hr
  have hg : Nat.gcd (24576000 * r.sytInterval) r.rate * incrementDen r = r.rate :=
    Nat.mul_div_cancel' (Nat.gcd_dvd_right _ _)
  have hd : r.rate ∣ 24576000 * r.sytInterval * subtickDen c := by
    rw [hk, ← hg, ← Nat.mul_assoc]
    exact (Nat.mul_dvd_mul_right (Nat.gcd_dvd_left _ _) _).trans (Nat.dvd_mul_right _ _)
  exact Nat.div_mul_cancel hd

theorem advance_lt {c : Config} (h : c.wellFormed = true) (last : Nat) (r : RateRow) :
    advance c last r < 196608000 * subtickDen c :=
  Nat.mod_lt _ (Nat.mul_pos (by norm_num) (subtickDen_pos h))

end Sys2Proof.Machine
end

