-- ==== Sys2Proof/Laws/Decode.lean ====
section
/-! SUPPORT. What the decoder can answer, said once (30_encoding.md R75 to R77). -/

namespace Sys2Proof

@[simp] theorem frameLength_init : frameLength opInit = 2 := rfl
@[simp] theorem frameLength_dcs : frameLength opDcs = 2 := rfl
@[simp] theorem frameLength_dpk : frameLength opDpk = 4 := rfl

theorem frameLength_other {op : BitVec 4} (h1 : op ≠ opInit) (h2 : op ≠ opDcs) (h3 : op ≠ opDpk) : frameLength op = 1 := by
  simp [frameLength, h1, h2, h3]

theorem encode_eq_cons (i : Instr) : ∃ ops, encode i = header i :: ops := by
  cases i <;> exact ⟨_, rfl⟩

/-- Everything the decoder can answer to a word stream (R75 to R77, U13). -/
theorem decode_cases (ws : List Word) :
    (ws = [] ∧ decode ws = .empty) ∨
      (∃ w0 w1 rest, ws = w0 :: w1 :: rest ∧ opOf w0 = opInit ∧ shortReserved w0 = 0#28 ∧
        decode ws = .command (.init w1) rest) ∨
      (∃ w0 w1 rest, ws = w0 :: w1 :: rest ∧ opOf w0 = opDcs ∧ shortReserved w0 = 0#28 ∧
        decode ws = .command (.dcs w1) rest) ∨
      (∃ w0 w1 w2 w3 rest, ws = w0 :: w1 :: w2 :: w3 :: rest ∧ opOf w0 = opDpk ∧ dpkReserved w0 = 0#4 ∧
        decode ws = .command (.dpk w1 (secField w0) (cycleField w0) w2 w3) rest) ∨
      (∃ w0 w1 rest, ws = w0 :: w1 :: rest ∧ (opOf w0 = opInit ∨ opOf w0 = opDcs) ∧ shortReserved w0 ≠ 0#28 ∧
        decode ws = .illegal (opOf w0) .reservedBit rest) ∨
      (∃ w0 w1 w2 w3 rest, ws = w0 :: w1 :: w2 :: w3 :: rest ∧ opOf w0 = opDpk ∧ dpkReserved w0 ≠ 0#4 ∧
        decode ws = .illegal (opOf w0) .reservedBit rest) ∨
      (∃ w0 rest, ws = w0 :: rest ∧ (opOf w0 ≠ opInit ∧ opOf w0 ≠ opDcs ∧ opOf w0 ≠ opDpk) ∧
        decode ws = .illegal (opOf w0) .unknownOp rest) ∨
      (∃ w0 ops, ws = w0 :: ops ∧ ops.length + 1 < frameLength (opOf w0) ∧ decode ws = .incomplete) := by
  cases ws with
  | nil => exact .inl ⟨rfl, rfl⟩
  | cons w0 ops =>
    refine .inr ?_
    by_cases h1 : opOf w0 = opInit
    · cases ops with
      | nil => exact .inr (.inr (.inr (.inr (.inr (.inr ⟨w0, [], rfl, by simp [h1], by simp [decode, h1]⟩)))))
      | cons w1 rest =>
        by_cases hr : shortReserved w0 = 0#28
        · exact .inl ⟨w0, w1, rest, rfl, h1, hr, by simp [decode, h1, hr]⟩
        · exact .inr (.inr (.inr (.inl ⟨w0, w1, rest, rfl, .inl h1, hr, by simp [decode, h1, hr]⟩)))
    · by_cases h2 : opOf w0 = opDcs
      · have h21 : opDcs ≠ opInit := by decide
        cases ops with
        | nil => exact .inr (.inr (.inr (.inr (.inr (.inr ⟨w0, [], rfl, by simp [h2], by simp [decode, h2, h21]⟩)))))
        | cons w1 rest =>
          by_cases hr : shortReserved w0 = 0#28
          · exact .inr (.inl ⟨w0, w1, rest, rfl, h2, hr, by simp [decode, h2, h21, hr]⟩)
          · exact .inr (.inr (.inr (.inl ⟨w0, w1, rest, rfl, .inr h2, hr, by simp [decode, h2, h21, hr]⟩)))
      · by_cases h3 : opOf w0 = opDpk
        · have h31 : opDpk ≠ opInit := by decide
          have h32 : opDpk ≠ opDcs := by decide
          match ops with
          | [] => exact .inr (.inr (.inr (.inr (.inr (.inr ⟨w0, [], rfl, by simp [h3], by simp [decode, h3, h31, h32]⟩)))))
          | [w1] => exact .inr (.inr (.inr (.inr (.inr (.inr ⟨w0, _, rfl, by simp [h3], by simp [decode, h3, h31, h32]⟩)))))
          | [w1, w2] => exact .inr (.inr (.inr (.inr (.inr (.inr ⟨w0, _, rfl, by simp [h3], by simp [decode, h3, h31, h32]⟩)))))
          | w1 :: w2 :: w3 :: rest =>
            by_cases hr : dpkReserved w0 = 0#4
            · exact .inr (.inr (.inl ⟨w0, w1, w2, w3, rest, rfl, h3, hr, by simp [decode, h3, h31, h32, hr]⟩))
            · exact .inr (.inr (.inr (.inr (.inl ⟨w0, w1, w2, w3, rest, rfl, h3, hr, by simp [decode, h3, h31, h32, hr]⟩))))
        · exact .inr (.inr (.inr (.inr (.inr (.inl ⟨w0, ops, rfl, ⟨h1, h2, h3⟩, by simp [decode, h1, h2, h3]⟩)))))

end Sys2Proof
end

