-- ==== Sys2Proof/Laws/State.lean ====
section
/-! SUPPORT. One lemma per field per named update of the state, each true by rfl; later proofs unfold no record update. -/

namespace Sys2Proof.Machine

section
variable (s : State)

/-! `State.present`. -/

@[simp] theorem State.present_chan (ws : List Word) : (s.present ws).chan = s.chan := rfl
@[simp] theorem State.present_resetCycle (ws : List Word) : (s.present ws).resetCycle = s.resetCycle := rfl
@[simp] theorem State.present_dbCount (ws : List Word) : (s.present ws).dbCount = s.dbCount := rfl
@[simp] theorem State.present_lastTstamp (ws : List Word) : (s.present ws).lastTstamp = s.lastTstamp := rfl
@[simp] theorem State.present_lastDelay (ws : List Word) : (s.present ws).lastDelay = s.lastDelay := rfl
@[simp] theorem State.present_lastAccum (ws : List Word) : (s.present ws).lastAccum = s.lastAccum := rfl
@[simp] theorem State.present_cmdPort (ws : List Word) : (s.present ws).cmdPort = s.cmdPort ++ ws := rfl
@[simp] theorem State.present_rspPort (ws : List Word) : (s.present ws).rspPort = s.rspPort := rfl

/-! `State.takeFrame`. -/

@[simp] theorem State.takeFrame_chan (rest : List Word) : (s.takeFrame rest).chan = s.chan := rfl
@[simp] theorem State.takeFrame_resetCycle (rest : List Word) : (s.takeFrame rest).resetCycle = s.resetCycle := rfl
@[simp] theorem State.takeFrame_dbCount (rest : List Word) : (s.takeFrame rest).dbCount = s.dbCount := rfl
@[simp] theorem State.takeFrame_lastTstamp (rest : List Word) : (s.takeFrame rest).lastTstamp = s.lastTstamp := rfl
@[simp] theorem State.takeFrame_lastDelay (rest : List Word) : (s.takeFrame rest).lastDelay = s.lastDelay := rfl
@[simp] theorem State.takeFrame_lastAccum (rest : List Word) : (s.takeFrame rest).lastAccum = s.lastAccum := rfl
@[simp] theorem State.takeFrame_cmdPort (rest : List Word) : (s.takeFrame rest).cmdPort = rest := rfl
@[simp] theorem State.takeFrame_rspPort (rest : List Word) : (s.takeFrame rest).rspPort = s.rspPort := rfl

/-! `State.respond`. -/

@[simp] theorem State.respond_chan (r : Response) : (s.respond r).chan = s.chan := rfl
@[simp] theorem State.respond_resetCycle (r : Response) : (s.respond r).resetCycle = s.resetCycle := rfl
@[simp] theorem State.respond_dbCount (r : Response) : (s.respond r).dbCount = s.dbCount := rfl
@[simp] theorem State.respond_lastTstamp (r : Response) : (s.respond r).lastTstamp = s.lastTstamp := rfl
@[simp] theorem State.respond_lastDelay (r : Response) : (s.respond r).lastDelay = s.lastDelay := rfl
@[simp] theorem State.respond_lastAccum (r : Response) : (s.respond r).lastAccum = s.lastAccum := rfl
@[simp] theorem State.respond_cmdPort (r : Response) : (s.respond r).cmdPort = s.cmdPort := rfl
@[simp] theorem State.respond_rspPort (r : Response) : (s.respond r).rspPort = s.rspPort ++ [r] := rfl

/-! `State.raise`. -/

@[simp] theorem State.raise_chan (op : BitVec 4) (f : ItdFault) : (s.raise op f).chan = s.chan := rfl
@[simp] theorem State.raise_resetCycle (op : BitVec 4) (f : ItdFault) : (s.raise op f).resetCycle = s.resetCycle := rfl
@[simp] theorem State.raise_dbCount (op : BitVec 4) (f : ItdFault) : (s.raise op f).dbCount = s.dbCount := rfl
@[simp] theorem State.raise_lastTstamp (op : BitVec 4) (f : ItdFault) : (s.raise op f).lastTstamp = s.lastTstamp := rfl
@[simp] theorem State.raise_lastDelay (op : BitVec 4) (f : ItdFault) : (s.raise op f).lastDelay = s.lastDelay := rfl
@[simp] theorem State.raise_lastAccum (op : BitVec 4) (f : ItdFault) : (s.raise op f).lastAccum = s.lastAccum := rfl
@[simp] theorem State.raise_cmdPort (op : BitVec 4) (f : ItdFault) : (s.raise op f).cmdPort = s.cmdPort := rfl
@[simp] theorem State.raise_rspPort (op : BitVec 4) (f : ItdFault) : (s.raise op f).rspPort = s.rspPort ++ [.fault op f] := rfl

/-! `State.construct`. -/

@[simp] theorem State.construct_chan (c : Config) (v : BitVec 32) : (s.construct c v).chan = chanValue c v := rfl
@[simp] theorem State.construct_resetCycle (c : Config) (v : BitVec 32) : (s.construct c v).resetCycle = none := rfl
@[simp] theorem State.construct_dbCount (c : Config) (v : BitVec 32) : (s.construct c v).dbCount = 0 := rfl
@[simp] theorem State.construct_lastTstamp (c : Config) (v : BitVec 32) : (s.construct c v).lastTstamp = none := rfl
@[simp] theorem State.construct_lastDelay (c : Config) (v : BitVec 32) : (s.construct c v).lastDelay = none := rfl
@[simp] theorem State.construct_lastAccum (c : Config) (v : BitVec 32) : (s.construct c v).lastAccum = none := rfl
@[simp] theorem State.construct_cmdPort (c : Config) (v : BitVec 32) : (s.construct c v).cmdPort = s.cmdPort := rfl
@[simp] theorem State.construct_rspPort (c : Config) (v : BitVec 32) : (s.construct c v).rspPort = s.rspPort := rfl

/-! `State.commitBlocks`. -/

@[simp] theorem State.commitBlocks_chan (rc : BitVec 16) (n : Nat) : (s.commitBlocks rc n).chan = s.chan := rfl
@[simp] theorem State.commitBlocks_resetCycle (rc : BitVec 16) (n : Nat) : (s.commitBlocks rc n).resetCycle = some rc := rfl
@[simp] theorem State.commitBlocks_dbCount (rc : BitVec 16) (n : Nat) : (s.commitBlocks rc n).dbCount = n := rfl
@[simp] theorem State.commitBlocks_lastTstamp (rc : BitVec 16) (n : Nat) : (s.commitBlocks rc n).lastTstamp = s.lastTstamp := rfl
@[simp] theorem State.commitBlocks_lastDelay (rc : BitVec 16) (n : Nat) : (s.commitBlocks rc n).lastDelay = s.lastDelay := rfl
@[simp] theorem State.commitBlocks_lastAccum (rc : BitVec 16) (n : Nat) : (s.commitBlocks rc n).lastAccum = s.lastAccum := rfl
@[simp] theorem State.commitBlocks_cmdPort (rc : BitVec 16) (n : Nat) : (s.commitBlocks rc n).cmdPort = s.cmdPort := rfl
@[simp] theorem State.commitBlocks_rspPort (rc : BitVec 16) (n : Nat) : (s.commitBlocks rc n).rspPort = s.rspPort := rfl

/-! `State.commitTimestamp`. -/

@[simp] theorem State.commitTimestamp_chan (t : Nat) (d : Int) (a : Nat) : (s.commitTimestamp t d a).chan = s.chan := rfl
@[simp] theorem State.commitTimestamp_resetCycle (t : Nat) (d : Int) (a : Nat) : (s.commitTimestamp t d a).resetCycle = s.resetCycle := rfl
@[simp] theorem State.commitTimestamp_dbCount (t : Nat) (d : Int) (a : Nat) : (s.commitTimestamp t d a).dbCount = s.dbCount := rfl
@[simp] theorem State.commitTimestamp_lastTstamp (t : Nat) (d : Int) (a : Nat) : (s.commitTimestamp t d a).lastTstamp = some t := rfl
@[simp] theorem State.commitTimestamp_lastDelay (t : Nat) (d : Int) (a : Nat) : (s.commitTimestamp t d a).lastDelay = some d := rfl
@[simp] theorem State.commitTimestamp_lastAccum (t : Nat) (d : Int) (a : Nat) : (s.commitTimestamp t d a).lastAccum = some a := rfl
@[simp] theorem State.commitTimestamp_cmdPort (t : Nat) (d : Int) (a : Nat) : (s.commitTimestamp t d a).cmdPort = s.cmdPort := rfl
@[simp] theorem State.commitTimestamp_rspPort (t : Nat) (d : Int) (a : Nat) : (s.commitTimestamp t d a).rspPort = s.rspPort := rfl

/-! The valid flags. -/

@[simp] theorem State.resetCycleV_eq : s.resetCycleV = s.resetCycle.isSome := rfl
@[simp] theorem State.lastTstampV_eq : s.lastTstampV = s.lastTstamp.isSome := rfl
@[simp] theorem State.lastDelayV_eq : s.lastDelayV = s.lastDelay.isSome := rfl
@[simp] theorem State.lastAccumV_eq : s.lastAccumV = s.lastAccum.isSome := rfl

end

end Sys2Proof.Machine
end

