-- ==== Sys2Proof/Laws/Packet.lean ====
section
/-! SUPPORT. What each part of DPK can do, said once (43_decode_packet.md). -/

namespace Sys2Proof.Machine

theorem Packet.sytCycle_le (p : Packet) : p.sytCycle ≤ 15 := Nat.le_of_lt_succ (BitVec.isLt _)

theorem Packet.tOffset_lt (p : Packet) : p.tOffset < 4096 := BitVec.isLt _

theorem Packet.cycle_lt (p : Packet) : p.cycle.toNat < 65536 := BitVec.isLt _

/-- Everything step 1's division can answer (R142). -/
theorem blocksPerPayload_cases (p : Packet) :
    (p.quadsPerPayload.toNat < 2 ∧ blocksPerPayload p = .error .shortPayload) ∨
      (2 ≤ p.quadsPerPayload.toNat ∧ p.quadsPerDb = 0#8 ∧ blocksPerPayload p = .error .dbsZero) ∨
      (2 ≤ p.quadsPerPayload.toNat ∧ p.quadsPerDb ≠ 0#8 ∧
        blocksPerPayload p = .ok ((p.quadsPerPayload.toNat - 2) / p.quadsPerDb.toNat)) := by
  by_cases h1 : p.quadsPerPayload.toNat < 2
  · exact .inl ⟨h1, by simp [blocksPerPayload, h1]⟩
  · by_cases h2 : p.quadsPerDb = 0#8
    · exact .inr (.inl ⟨by omega, h2, by simp [blocksPerPayload, h1, h2]⟩)
    · exact .inr (.inr ⟨by omega, h2, by simp [blocksPerPayload, h1, h2]⟩)

theorem accumulateBlocks_first {s : State} (h : s.resetCycle = none) (cycle : BitVec 16) (dbs : Nat) :
    accumulateBlocks cycle dbs s = ⟨cycle, dbs, 0, 0⟩ := by
  simp [accumulateBlocks, h]

theorem accumulateBlocks_later {s : State} {rc : BitVec 16} (h : s.resetCycle = some rc) (cycle : BitVec 16) (dbs : Nat) :
    accumulateBlocks cycle dbs s = ⟨rc, dbs, s.dbCount + dbs, if cycle = rc then 0 else s.dbCount + dbs⟩ := by
  simp [accumulateBlocks, h]

theorem accumulateBlocks_running_le (cycle : BitVec 16) (dbs : Nat) (s : State) :
    (accumulateBlocks cycle dbs s).running ≤ (accumulateBlocks cycle dbs s).report := by
  cases h : s.resetCycle with
  | none => simp [accumulateBlocks, h]
  | some rc => simp only [accumulateBlocks, h]; split <;> simp

/-- Step 1 completes exactly when its three faults do not apply (R142 to R145). -/
theorem countBlocks_ok {c : Config} {p : Packet} {s : State} {b : BlockCount} (h : countBlocks c p s = .ok b) :
    2 ≤ p.quadsPerPayload.toNat ∧ p.quadsPerDb ≠ 0#8 ∧ b.report < 2 ^ c.wDb ∧
      b = accumulateBlocks p.cycle ((p.quadsPerPayload.toNat - 2) / p.quadsPerDb.toNat) s := by
  unfold countBlocks at h
  rcases blocksPerPayload_cases p with ⟨_, e⟩ | ⟨_, _, e⟩ | ⟨h1, h2, e⟩ <;> rw [e] at h <;> simp only at h
  · cases h
  · cases h
  · split at h
    · cases h
    · obtain rfl := Except.ok.inj h
      exact ⟨h1, h2, Nat.lt_of_not_le ‹_›, rfl⟩

/-- A fault of step 1 is one of three, in their order (R142, R145, R224). -/
theorem countBlocks_error {c : Config} {p : Packet} {s : State} {f : ItdFault} (h : countBlocks c p s = .error f) :
    (p.quadsPerPayload.toNat < 2 ∧ f = .shortPayload) ∨
      (2 ≤ p.quadsPerPayload.toNat ∧ p.quadsPerDb = 0#8 ∧ f = .dbsZero) ∨
      (2 ≤ p.quadsPerPayload.toNat ∧ p.quadsPerDb ≠ 0#8 ∧
        2 ^ c.wDb ≤ (accumulateBlocks p.cycle ((p.quadsPerPayload.toNat - 2) / p.quadsPerDb.toNat) s).report ∧
        f = .counterOverflow) := by
  unfold countBlocks at h
  rcases blocksPerPayload_cases p with ⟨h1, e⟩ | ⟨h1, h2, e⟩ | ⟨h1, h2, e⟩ <;> rw [e] at h <;> simp only at h
  · exact .inl ⟨h1, (Except.error.inj h).symm⟩
  · exact .inr (.inl ⟨h1, h2, (Except.error.inj h).symm⟩)
  · split at h
    · exact .inr (.inr ⟨h1, h2, ‹_›, (Except.error.inj h).symm⟩)
    · cases h

/-- Everything DPK can do on an instance built with configuration `c`: a fault, an early commit or a full one (R141). -/
theorem runPacket_cases (c : Config) (p : Packet) (s : State) :
    (∃ f, runPacket c p s = s.raise opDpk f) ∨
      (∃ b, countBlocks c p s = .ok b ∧ p.syt = noSyt ∧ runPacket c p s = commitUntimed b s) ∨
      (∃ b r, countBlocks c p s = .ok b ∧ p.syt ≠ noSyt ∧ rateOf c p.sfc = some r ∧
        runPacket c p s = commitTimed c p r b s) := by
  unfold runPacket
  cases hb : countBlocks c p s with
  | error f => exact .inl ⟨f, rfl⟩
  | ok b =>
    by_cases hs : p.syt = noSyt
    · exact .inr (.inl ⟨b, rfl, hs, by simp [hs]⟩)
    · cases hr : rateOf c p.sfc with
      | none => exact .inl ⟨.unsupportedRate p.sfc, by simp [hs]⟩
      | some r => exact .inr (.inr ⟨b, r, rfl, hs, rfl, by simp [hs]⟩)

/-- A DPK keeps `CHAN` and the words still waiting, and answers once (R24, R55). -/
theorem runPacket_frame (c : Config) (p : Packet) (s : State) :
    (runPacket c p s).chan = s.chan ∧ (runPacket c p s).cmdPort = s.cmdPort ∧
      ∃ r, (runPacket c p s).rspPort = s.rspPort ++ [r] := by
  rcases runPacket_cases c p s with ⟨f, e⟩ | ⟨b, -, -, e⟩ | ⟨b, r, -, -, -, e⟩ <;> rw [e] <;>
    exact ⟨rfl, rfl, _, rfl⟩

end Sys2Proof.Machine
end

