-- ==== Sys2Proof/Laws/PerInstr.lean ====
section
/-! SUPPORT. Facts about every instruction as syntax, one lemma per constructor. -/

namespace Sys2Proof.Laws.EncodeLength

/-- The frame of an operation has the length its own header gives (30_encoding.md R75). -/
def Statement (i : Instr) : Prop := (encode i).length = frameLength (opOf (header i))

theorem init (chan : BitVec 32) : Statement (.init chan) := by
  have h : opOf (header (.init chan)) = opInit := (by decide : opOf 0x10000000#32 = opInit)
  rw [Statement, h]
  rfl

theorem dcs (raw32 : BitVec 32) : Statement (.dcs raw32) := by
  have h : opOf (header (.dcs raw32)) = opDcs := (by decide : opOf 0x20000000#32 = opDcs)
  rw [Statement, h]
  rfl

theorem dpk (q : BitVec 32) (sec : BitVec 8) (cycle : BitVec 16) (cip0 cip1 : BitVec 32) :
    Statement (.dpk q sec cycle cip0 cip1) := by
  have h : opOf (header (.dpk q sec cycle cip0 cip1)) = opDpk := by
    ext i hi
    have : i = 0 ∨ i = 1 ∨ i = 2 ∨ i = 3 := by omega
    rcases this with rfl | rfl | rfl | rfl <;> simp [opOf, header, opDpk]
  rw [Statement, h]
  rfl

end Sys2Proof.Laws.EncodeLength
end

