-- ==== Sys2Proof/Laws/Platform.lean ====
section
/-! SUPPORT. What an operation of one instance of a platform can do, said once (20_memory.md R60). -/

namespace Sys2Proof.Machine

/-- One operation of instance `k` steps that instance and leaves every other one as it was. -/
theorem Platform.stepAt_cases {p q : Platform} {k : Nat} (h : p.stepAt k = some q) :
    ∃ x t, p[k]? = some x ∧ stepWith x.config x.state = .next t ∧ q = p.set k ⟨x.config, t⟩ := by
  unfold Platform.stepAt at h
  cases hk : p[k]? with
  | none => simp [hk] at h
  | some x =>
    simp only [hk] at h
    cases hs : stepWith x.config x.state with
    | next t => exact ⟨x, t, rfl, hs, by simpa [hs] using h.symm⟩
    | fault f => simp [hs] at h
    | refused r => simp [hs] at h

end Sys2Proof.Machine
end

