-- ==== Sys2Proof/Laws/Response.lean ====
section
/-! SUPPORT. The shape of a response frame (30_encoding.md R78 to R82). -/

namespace Sys2Proof.Machine

theorem timestampWords_length (ts : Option TimestampSide) : (timestampWords ts).length = 7 := by
  cases ts <;> rfl

theorem recordFrame_length (r : Record) : (recordFrame r).length = 11 := by
  simp [recordFrame, timestampWords_length]

theorem faultOfCode_faultCode (f : ItdFault) : faultOfCode (faultCode f) (faultInfo f) = some f := by
  cases f <;> rfl

end Sys2Proof.Machine
end

