-- ==== Sys2Proof/Laws/Step.lean ====
section
/-! SUPPORT. What an operation and a step can do, said once for every build of the ITD (20_memory.md R55) and for the one
that `exec` and `step` run (00_scope.md R10). -/

namespace Sys2Proof.Machine

/-- The `CHAN` of a build stays below `2^W_CHAN` (10_state.md R20). -/
theorem chanValue_lt (c : Config) (chan : BitVec 32) : chanValue c chan < 2 ^ c.wChan := Nat.mod_lt _ (Nat.two_pow_pos _)

/-- At `W_CHAN = 32` the whole operand is stored (30_encoding.md R72). -/
@[simp] theorem chanValue_itdConfig (chan : BitVec 32) : chanValue itdConfig chan = chan.toNat := Nat.mod_eq_of_lt chan.isLt

/-- All of INIT (41_init.md R120). -/
@[simp] theorem runInit_eq (c : Config) (chan : BitVec 32) (s : State) : runInit c chan s = (s.construct c chan).respond .ok := rfl

/-- All of DCS (42_cycle_start.md R130). -/
@[simp] theorem runCycleStart_eq (raw32 : BitVec 32) (s : State) :
    runCycleStart raw32 s = s.respond (.position (cycleStartSecond raw32) (cycleStartCycle raw32)) := rfl

theorem exec_eq_execWith (i : Instr) (s : State) : exec i s = execWith itdConfig i s := by cases i <;> rfl

/-- Everything a step around any meaning can do when it answers a next state: run a legal frame, or answer an illegal one. -/
theorem stepBy_cases {meaning : Instr → State → Host.Outcome State Fault Refusal} {s t : State}
    (h : stepBy meaning s = .next t) :
    (∃ i rest, decode s.cmdPort = .command i rest ∧ meaning i (s.takeFrame rest) = .next t) ∨
      (∃ op why rest, decode s.cmdPort = .illegal op why rest ∧ t = answerIllegal op rest s) := by
  unfold stepBy at h
  split at h
  · exact .inl ⟨_, _, ‹_›, h⟩
  · exact .inr ⟨_, _, _, ‹_›, (Host.Outcome.next.inj h).symm⟩
  · cases h
  · cases h

theorem stepBy_of_command {meaning : Instr → State → Host.Outcome State Fault Refusal} {s : State} {i : Instr}
    {rest : List Word} (h : decode s.cmdPort = .command i rest) : stepBy meaning s = meaning i (s.takeFrame rest) := by
  simp [stepBy, h]

theorem stepBy_of_illegal {meaning : Instr → State → Host.Outcome State Fault Refusal} {s : State} {op : BitVec 4}
    {why : IllegalHeader} {rest : List Word} (h : decode s.cmdPort = .illegal op why rest) :
    stepBy meaning s = .next (answerIllegal op rest s) := by
  simp [stepBy, h]

/-- A stream that ends inside a frame stops the step (93_implementation_defined.md U13). -/
theorem stepBy_of_incomplete {meaning : Instr → State → Host.Outcome State Fault Refusal} {s : State}
    (h : decode s.cmdPort = .incomplete) : stepBy meaning s = .refused .frameIncomplete := by
  simp [stepBy, h]

theorem stepBy_of_empty {meaning : Instr → State → Host.Outcome State Fault Refusal} {s : State}
    (h : decode s.cmdPort = .empty) : stepBy meaning s = .fault .noCommand := by
  simp [stepBy, h]

theorem step_eq_stepWith (s : State) : step s = stepWith itdConfig s :=
  congrArg (stepBy · s) (funext fun i => funext fun t => exec_eq_execWith i t)

/-- Every operation of every build ends in a next state, with one response more and the waiting words as they were
(R55, R252). -/
theorem execWith_frame (c : Config) (i : Instr) (s : State) :
    ∃ t r, execWith c i s = .next t ∧ t.cmdPort = s.cmdPort ∧ t.rspPort = s.rspPort ++ [r] := by
  cases i with
  | init chan => exact ⟨_, .ok, rfl, rfl, rfl⟩
  | dcs raw32 => exact ⟨_, .position _ _, rfl, rfl, rfl⟩
  | dpk q sec cycle cip0 cip1 =>
    obtain ⟨-, h2, r, h3⟩ := runPacket_frame c ⟨q, sec, cycle, cip0, cip1⟩ s
    exact ⟨_, r, rfl, h2, h3⟩

/-- `execWith_frame` for the machine's own build. -/
theorem exec_frame (i : Instr) (s : State) :
    ∃ t r, exec i s = .next t ∧ t.cmdPort = s.cmdPort ∧ t.rspPort = s.rspPort ++ [r] := by
  simpa only [exec_eq_execWith] using execWith_frame itdConfig i s

/-- `stepBy_cases` for the machine's own build. -/
theorem step_cases {s t : State} (h : step s = .next t) :
    (∃ i rest, decode s.cmdPort = .command i rest ∧ exec i (s.takeFrame rest) = .next t) ∨
      (∃ op why rest, decode s.cmdPort = .illegal op why rest ∧ t = answerIllegal op rest s) :=
  stepBy_cases h

theorem step_of_command {s : State} {i : Instr} {rest : List Word} (h : decode s.cmdPort = .command i rest) :
    step s = exec i (s.takeFrame rest) :=
  stepBy_of_command h

theorem step_of_illegal {s : State} {op : BitVec 4} {why : IllegalHeader} {rest : List Word}
    (h : decode s.cmdPort = .illegal op why rest) : step s = .next (answerIllegal op rest s) :=
  stepBy_of_illegal h

end Sys2Proof.Machine
end

