-- ==== Sys2Proof/Laws/Run.lean ====
section
/-! SUPPORT. What a run can do, said once (70_reset_and_hazards.md R254): for any core of the host's interface, then for the
machine's and for every build's. -/

namespace Sys2Proof.Machine

theorem coreRun_succ_of_next {M : Host.Core} {n : Nat} {s t : M.State} (h : M.step s = .next t) :
    M.run (n + 1) s = M.run n t := by
  simp only [Host.Core.run, h]

/-- A run that ends in a state has taken each of its steps. -/
theorem coreRun_succ_cases {M : Host.Core} {n : Nat} {s u : M.State} (h : M.run (n + 1) s = .next u) :
    ∃ t, M.step s = .next t ∧ M.run n t = .next u := by
  cases hs : M.step s with
  | next t => exact ⟨t, rfl, (coreRun_succ_of_next hs).symm.trans h⟩
  | fault f => simp only [Host.Core.run, hs] at h; cases h
  | refused r => simp only [Host.Core.run, hs] at h; cases h

theorem run_zero (s : State) : run 0 s = .next s := rfl

/-- A run goes on from the state its first step answers. -/
theorem run_succ_of_next {n : Nat} {s t : State} (h : step s = .next t) : run (n + 1) s = run n t :=
  coreRun_succ_of_next (M := Sys2Proof.core) h

theorem run_succ_cases {n : Nat} {s u : State} (h : run (n + 1) s = .next u) :
    ∃ t, step s = .next t ∧ run n t = .next u :=
  coreRun_succ_cases (M := Sys2Proof.core) h

theorem runWith_zero (c : Config) (s : State) : runWith c 0 s = .next s := rfl

theorem runWith_succ_of_next {c : Config} {n : Nat} {s t : State} (h : stepWith c s = .next t) :
    runWith c (n + 1) s = runWith c n t :=
  coreRun_succ_of_next (M := coreWith c) h

theorem runWith_succ_cases {c : Config} {n : Nat} {s u : State} (h : runWith c (n + 1) s = .next u) :
    ∃ t, stepWith c s = .next t ∧ runWith c n t = .next u :=
  coreRun_succ_cases (M := coreWith c) h

end Sys2Proof.Machine
end

