-- ==== Sys2Proof/Tests/Slice0.lean ====
section
/-! SUPPORT. Tests with results from spec/95_test_vectors.md and the worked values of the other files, and for every
obligation with hypotheses a witness: concrete values that meet them all. -/

namespace Sys2Proof.Tests

open Sys2Proof.Machine

/-! The states and packets of the vectors. -/

/-- An instance with a first packet behind it and the registers a vector names. -/
def midStream (resetCycle : BitVec 16) (dbCount lastTstamp : Nat) (lastDelay : Int) (lastAccum : Nat) : State :=
  { State.reset with resetCycle := some resetCycle, dbCount := dbCount, lastTstamp := some lastTstamp,
                     lastDelay := some lastDelay, lastAccum := some lastAccum }

/-- An instance that has seen packets, none of them with a timestamp. -/
def untimedStream (resetCycle : BitVec 16) (dbCount : Nat) : State :=
  { State.reset with resetCycle := some resetCycle, dbCount := dbCount }

/-- A fresh instance with words waiting. -/
def loaded (ws : List Word) : State := State.reset.present ws

/-- The end state of V10 (43_decode_packet.md R164). -/
def afterV10 : State := midStream 100#16 0 74045416 10216 10884676152

/-- The packet of R164, the next one of program P4, one with no timestamp (V11), the two of property S7, the one that
overflows the counter (V47), and one with an unknown code (V40). -/
def packetV10 : Packet := ⟨18#32, 3#8, 100#16, 0x00020000#32, 0x000273E8#32⟩
def packetV28 : Packet := ⟨18#32, 3#8, 101#16, 0x00020000#32, 0x00018952#32⟩
def packetV11 : Packet := ⟨2#32, 3#8, 101#16, 0x00020000#32, 0x0002FFFF#32⟩
def packetS7a : Packet := ⟨18#32, 0#8, 0#16, 0x00020000#32, 0x00020064#32⟩
def packetS7b : Packet := ⟨18#32, 0#8, 1#16, 0x00020000#32, 0x00021464#32⟩
def packetV47 : Packet := ⟨4#32, 0#8, 8#16, 0x00020000#32, 0x0002FFFF#32⟩
def packetV40 : Packet := ⟨18#32, 3#8, 101#16, 0x00020000#32, 0x000783E8#32⟩

/-- The last response that an operation gave. -/
def lastResponse (i : Instr) (s : State) : Option Response :=
  match exec i s with
  | .next t => t.rspPort.getLast?
  | .fault _ => none
  | .refused _ => none

/-! Ill-formed frames and configurations are refused, and why. -/

theorem test_frame_unknown_op : Frame.wellFormed [0x40000000#32] = false := by decide
theorem test_frame_reserved_bit : Frame.wellFormed [0x10000001#32, 5#32] = false := by decide
theorem test_frame_too_short : Frame.wellFormed [0x30030064#32, 18#32, 0#32] = false := by decide
theorem test_frame_too_long : Frame.wellFormed [0x20000000#32, 0#32, 0#32] = false := by decide
theorem test_frame_legal : Frame.wellFormed [0x30FFFFFF#32, 0#32, 0#32, 0#32] = true := by decide

theorem test_config_zero_rate : Config.wellFormed ⟨32, 14, 64, [⟨2#8, 0, 8⟩]⟩ = false := by decide
theorem test_config_zero_interval : Config.wellFormed ⟨32, 14, 64, [⟨2#8, 48000, 0⟩]⟩ = false := by decide
theorem test_config_code_twice : Config.wellFormed ⟨32, 14, 64, [⟨2#8, 48000, 8⟩, ⟨2#8, 32000, 8⟩]⟩ = false := by decide
theorem test_config_wide_counter : Config.wellFormed ⟨32, 14, 65, [⟨2#8, 48000, 8⟩]⟩ = false := by decide
theorem test_config_wide_channel : Config.wellFormed ⟨33, 14, 64, [⟨2#8, 48000, 8⟩]⟩ = false := by decide

/-- A platform has at least one instance, each a build of the ITD. -/
theorem test_platform_wellFormed : Platform.wellFormed [] = false ∧ (Platform.reset [itdConfig]).wellFormed = true ∧
    (Platform.reset [itdConfig, ⟨32, 14, 65, []⟩]).wellFormed = false := by decide
theorem test_config_default : itdConfig.wellFormed = true := by decide

/-! Words written out from 30_encoding.md section 4 and R76. -/

theorem test_decode_init : decode [0x10000000#32, 0x00000005#32] = .command (.init 5#32) [] := by decide
theorem test_decode_dcs : decode [0x20000000#32, 0x0FF3F000#32] = .command (.dcs 0x0FF3F000#32) [] := by decide
theorem test_decode_dpk : decode [0x30030064#32, 0x00000012#32, 0x00020000#32, 0x000273E8#32] =
    .command (.dpk 18#32 3#8 100#16 0x00020000#32 0x000273E8#32) [] := by decide
theorem test_decode_dpk_widest : decode [0x30FFFFFF#32, 1#32, 2#32, 3#32, 7#32] =
    .command (.dpk 1#32 255#8 65535#16 2#32 3#32) [7#32] := by decide
theorem test_decode_all_zero : decode [0#32] = .illegal 0#4 .unknownOp [] := by decide

/-- The table's own numbers, operand words zero. -/
theorem test_table_words : decodeTableWord 64 0x10000000 = some (.init 0#32) ∧
    decodeTableWord 64 0x20000000 = some (.dcs 0#32) ∧ decodeTableWord 32 0x30000000 = some (.dpk 0#32 0#8 0#16 0#32 0#32) := by
  decide

theorem test_assemble : assembleChars "DPK 18, 3, 100, 0x00020000, 0x000273E8".toList = some packetV10.instr ∧
    assembleChars "DPKR 18, 0x06064000, 0x00020000, 0x000273E8".toList = some packetV10.instr ∧
    assembleChars "INIT 4294967296".toList = none := by decide

theorem test_response_text : [responseText .ok, responseText (.position 7#7 7999#13), responseText (.fault 3#4 (.unsupportedRate 7#8))] =
    ["-> OK", "-> (7, 7999)", "-> FAULT UnsupportedRate"] := by decide

/-! One step of each instruction. -/

/-- `INIT 5` in mid-stream (program P6, R121). -/
theorem test_init : step (afterV10.present [0x10000000#32, 5#32]) =
    .next { State.reset with chan := 5, rspPort := [.ok] } := rfl

/-- A build with an 8-bit `CHAN` (log entry 21), and the build with the addend 16 on V14's packet (R104). -/
theorem test_other_builds : (runInit { itdConfig with wChan := 8 } 0xFFFFFF05#32 State.reset).chan = 5 ∧
    (runPacket { itdConfig with rollAdd := 16 } ⟨10#32, 0#8, 97#16, 0x00020000#32, 0x00020000#32⟩ State.reset).lastDelay =
      some 46080 := by decide

/-- V8. -/
theorem test_dcs : step (afterV10.present [0x20000000#32, 0x12345678#32]) =
    .next { afterV10 with rspPort := [.position 9#7 837#13] } := rfl

/-- V28: a fractional drift. -/
theorem test_dpk_fraction : (lastResponse packetV28.instr afterV10).map Response.frame =
    some [0x30000001#32, 0x06068952#32, 0x0469E952#32, 0x0000116A#32, 0x00002D52#32, 0x0000056A#32, 0#32, 0x22#32, 8#32, 0#32,
      8#32] := by decide

/-- V17: a stored timestamp above the tick domain, two negative figures. -/
theorem test_dpk_negative : (lastResponse (.dpk 10#32 0#8 0#16 0x00020000#32 0x00020000#32)
      (midStream 7999#16 0 196609022 4094 28901526234)).map Response.frame =
    some [0x30000001#32, 0#32, 0#32, 0xFFFFFC02#32, 0#32, 0xFFFFFC02#32, 0#32, 0x000B7ADA#32, 4#32, 0#32, 4#32] := by decide

/-- V40. -/
theorem test_unsupported_rate : (lastResponse packetV40.instr afterV10).map Response.frame = some [0x31070000#32] := by decide

/-! The arithmetic and the text (95_test_vectors.md section 2, 44_row_format.md). -/

theorem test_splice : [(100, 7), (100, 4), (100, 3), (98, 0), (97, 0), (7986, 0), (8191, 0), (8197, 3)].map
    (fun v => splice itdConfig v.1 v.2) = [103, 100, 115, 112, 96, 8000, 0, 19] := by decide
theorem test_carry : [carry 3 8000, carry 7 8001, carry 127 7999, carry 255 8000] = [(4, 0), (0, 1), (7, 7999), (0, 0)] := by
  decide
theorem test_fwd : [fwd 100 100, fwd 196607900 3996, fwd 196609022 0, fwd 0 196609023] = [0, 4096, -1022, 196609023] := by
  decide
theorem test_gap : [gap3072 11240 10216, gap3072 43018 43018, gap3072 100 3172, gap3072 3173 100] = [2048, 3072, 3072, -1] := by
  decide
theorem test_cdiff : [cdiff itdConfig 0 (98304000 * 147), cdiff itdConfig (98304000 * 147) 0,
    cdiff itdConfig (3996 * 147) (196607996 * 147)] = [98304000 * 147, 294912000 * 147, 4000 * 147] := by decide

/-- The 44.1 kHz step and the row of an absent timestamp. -/
theorem test_rows : rowChars ⟨some ⟨3, 104, 2386, 74049874, 4458, 11602, 1386, ⟨34, 147⟩⟩, 8, 8⟩ =
      " 3  104 2386 |  74049874 4458 | 11602 1386 |     0.23 |  8      8".toList ∧
    rowChars ⟨none, 0, 0⟩ = "-- ---- ---- | --------- ---- | ----- ---- | -------- |  0      0".toList := by decide

/-! Witnesses: the hypotheses of each obligation that has any, met together. -/

theorem witness_EveryDecodedCommandIsItsEncoding : decode [0x20000000#32, 7#32, 9#32] = .command (.dcs 7#32) [9#32] := by decide

theorem witness_FrameLengthFollowsHeader :
    ((0x0#4 ≠ 0x1#4 ∧ 0x0#4 ≠ 0x2#4 ∧ 0x0#4 ≠ 0x3#4) ∧ (0xF#4 ≠ 0x1#4 ∧ 0xF#4 ≠ 0x2#4 ∧ 0xF#4 ≠ 0x3#4)) ∧
    ([18#32, 0#32].length + 1 < frameLength (opOf 0x30030064#32) ∧ ¬ [18#32, 0#32, 0#32].length + 1 < frameLength (opOf 0x30030064#32)) ∧
    decode [0x30030064#32, 18#32, 0#32] = .incomplete ∧
    decode [0x30030064#32, 18#32, 0#32, 0#32] = .command (.dpk 18#32 3#8 100#16 0#32 0#32) [] ∧
    decode [0x31030064#32, 18#32, 0#32, 0#32] = .illegal 3#4 .reservedBit [] := by decide

theorem witness_UnknownOperationIsAnswered :
    ((loaded [0x0FFFFFFF#32, 5#32]).cmdPort = 0x0FFFFFFF#32 :: [5#32] ∧ (0x0FFFFFFF#32).extractLsb' 28 4 ≠ 0x1#4 ∧
      (0x0FFFFFFF#32).extractLsb' 28 4 ≠ 0x2#4 ∧ (0x0FFFFFFF#32).extractLsb' 28 4 ≠ 0x3#4) ∧
    ((loaded [0x40000000#32]).cmdPort = 0x40000000#32 :: [] ∧ (0x40000000#32).extractLsb' 28 4 ≠ 0x1#4 ∧
      (0x40000000#32).extractLsb' 28 4 ≠ 0x2#4 ∧ (0x40000000#32).extractLsb' 28 4 ≠ 0x3#4) := by decide

theorem witness_ReservedBitIsAnswered :
    ((loaded [0x10000001#32, 5#32]).cmdPort = 0x10000001#32 :: 5#32 :: [] ∧
      ((0x10000001#32).extractLsb' 28 4 = 0x1#4 ∨ (0x10000001#32).extractLsb' 28 4 = 0x2#4) ∧ (0x10000001#32).extractLsb' 0 28 ≠ 0#28) ∧
    ((loaded [0x28000000#32, 5#32]).cmdPort = 0x28000000#32 :: 5#32 :: [] ∧
      ((0x28000000#32).extractLsb' 28 4 = 0x1#4 ∨ (0x28000000#32).extractLsb' 28 4 = 0x2#4) ∧ (0x28000000#32).extractLsb' 0 28 ≠ 0#28) ∧
    ((loaded [0x31000000#32, 1#32, 2#32, 3#32]).cmdPort = 0x31000000#32 :: 1#32 :: 2#32 :: 3#32 :: [] ∧
      (0x31000000#32).extractLsb' 28 4 = 0x3#4 ∧ (0x31000000#32).extractLsb' 24 4 ≠ 0#4) ∧
    (0x30FFFFFF#32).extractLsb' 24 8 = 0x30#8 := by decide

theorem witness_StepRunsTheDecodedOperation :
    decode (loaded [0x20000000#32, 7#32, 9#32]).cmdPort = .command (.dcs 7#32) [9#32] ∧
    (loaded [0x20000000#32, 7#32, 9#32]).cmdPort = encode (.dcs 7#32) ++ [9#32] := by decide

/-- The same step on an instance of another build. -/
theorem test_step_other_build : stepWith { itdConfig with wChan := 8 } (loaded (encode (.init 0x1FF#32) ++ [9#32])) =
    .next { State.reset with chan := 0xFF, cmdPort := [9#32], rspPort := [.ok] } := rfl

theorem witness_EmptyCommandPortEndsTheRun : State.reset.cmdPort = [] := rfl

theorem witness_StreamEndingInsideFrameIsRefused :
    ((0x10000000#32).extractLsb' 28 4 = 0x1#4 ∧ (loaded [0x10000000#32]).cmdPort = 0x10000000#32 :: []) ∧
    ((0x20000000#32).extractLsb' 28 4 = 0x2#4 ∧ (loaded [0x20000000#32]).cmdPort = 0x20000000#32 :: []) ∧
    ((0x30000000#32).extractLsb' 28 4 = 0x3#4 ∧ (loaded [0x30000000#32, 1#32, 2#32]).cmdPort = 0x30000000#32 :: [1#32, 2#32] ∧
      [1#32, 2#32].length < 3) := by decide

theorem witness_EveryWholeFrameIsAnsweredOnce :
    ((loaded [0x30030064#32, 18#32, 0#32, 0#32]).cmdPort = 0x30030064#32 :: [18#32, 0#32, 0#32] ∧
      frameLength (opOf 0x30030064#32) ≤ [18#32, 0#32, 0#32].length + 1) ∧
    ((loaded [0x70000000#32]).cmdPort = 0x70000000#32 :: [] ∧ frameLength (opOf 0x70000000#32) ≤ [].length (α := Word) + 1) := by
  decide

theorem witness_LaterWordsDoNotChangeAStep : ∃ t, step (loaded [0x10000000#32, 5#32]) = .next t := ⟨_, rfl⟩

theorem witness_InitForgetsThePast :
    ({ afterV10 with cmdPort := [0x10000000#32, 5#32, 0x20000000#32, 7#32] } : State).cmdPort =
      encode (.init 5#32) ++ [0x20000000#32, 7#32] ∧
    (loaded [0x10000000#32, 5#32, 0x20000000#32, 7#32]).cmdPort = encode (.init 5#32) ++ [0x20000000#32, 7#32] ∧
    ∃ s', run 2 { afterV10 with cmdPort := [0x10000000#32, 5#32, 0x20000000#32, 7#32] } = .next s' :=
  ⟨rfl, rfl, _, rfl⟩

/-- The five faults and a record: the six arms of the statement, the first at the highest reserved bit. -/
theorem witness_DpkFaultsInOrder :
    (0x38000000#32).extractLsb' 28 4 = 0x3#4 ∧ (0x38000000#32).extractLsb' 24 4 ≠ 0#4 ∧
    (0x30030065#32).extractLsb' 28 4 = 0x3#4 ∧ (0x30030065#32).extractLsb' 24 4 = 0#4 ∧
    (loaded [0x30030065#32, 1#32, 0#32, 0x000783E8#32]).cmdPort = 0x30030065#32 :: 1#32 :: 0#32 :: 0x000783E8#32 :: [] ∧
    [lastResponse (.dpk 1#32 3#8 101#16 0#32 0x000783E8#32) afterV10, lastResponse (.dpk 2#32 3#8 101#16 0#32 0x000783E8#32) afterV10,
      lastResponse packetV47.instr (untimedStream 7#16 (2 ^ 64 - 1)), lastResponse packetV40.instr afterV10] =
    [some (.fault 3#4 .shortPayload), some (.fault 3#4 .dbsZero), some (.fault 3#4 .counterOverflow),
      some (.fault 3#4 (.unsupportedRate 7#8))] := by decide

theorem witness_DataBlocksOfAPayload :
    (1#32).toNat < 2 ∧ 2 ≤ (2#32).toNat ∧ (0xFF00FFFF#32).extractLsb' 16 8 = 0#8 ∧ (0x00010000#32).extractLsb' 16 8 ≠ 0#8 ∧
    lastResponse packetV11.instr afterV10 = some (.record ⟨none, 0, 0⟩) := by decide

theorem witness_FirstPacketIsNotCounted :
    (State.reset.resetCycle = none ∧ HasQuotient packetV10 ∧ (rateOf itdConfig packetV10.sfc).isSome = true) ∧
    (HasQuotient packetV11 ∧ packetV11.syt = noSyt) := by decide

theorem witness_LaterPacketAccumulates :
    (afterV10.resetCycle = some 100#16 ∧ HasQuotient packetV28 ∧ afterV10.dbCount + quotient packetV28 < 2 ^ 64 ∧
      (rateOf itdConfig packetV28.sfc).isSome = true ∧ packetV28.cycle ≠ 100#16) ∧
    (HasQuotient packetV10 ∧ afterV10.dbCount + quotient packetV10 < 2 ^ 64 ∧ packetV10.cycle = 100#16) := by decide

theorem witness_CounterOverflowAtAnyWidth :
    HasQuotient packetV47 ∧ reportedCount packetV47 (untimedStream 7#16 255) = 2 ^ 8 ∧
    reportedCount packetV47 (untimedStream 7#16 254) < 2 ^ 8 := by decide

theorem witness_UntimedPacketCommitsBlocksOnly :
    packetV11.cip1.extractLsb' 0 16 = 0xffff#16 ∧ BlocksCounted packetV11 afterV10 := by decide

theorem witness_TimedPacketCommitsEverything :
    packetV28.cip1.extractLsb' 0 16 ≠ 0xffff#16 ∧ BlocksCounted packetV28 afterV10 ∧
    rateOf itdConfig (packetV28.cip1.extractLsb' 16 8) = some ⟨0x01#8, 44100, 8⟩ := by decide

theorem witness_DpkFrame : (∃ t, exec packetV11.instr afterV10 = .next t) ∧ packetV11.syt = noSyt := ⟨⟨_, rfl⟩, by decide⟩

theorem witness_UnreadOperandBitsAreIgnored :
    (⟨18#32, 0x0B#8, 100#16, 0xFF02FFFF#32, 0xFF0273E8#32⟩ : Packet) ≠ packetV10 ∧
    (18#32 : Word) = packetV10.quadsPerPayload ∧ (0x0B#8).toNat % 8 = packetV10.sec.toNat % 8 ∧
    (0xFF02FFFF#32).extractLsb' 16 8 = packetV10.cip0.extractLsb' 16 8 ∧
    (0xFF0273E8#32).extractLsb' 0 24 = packetV10.cip1.extractLsb' 0 24 := by decide

theorem witness_TickIsRecovered : 7 < 8 ∧ 7999 < 8000 ∧ 3071 < 3072 ∧ tick 7 7999 3071 = 196607999 := by decide

/-- Each arm at a boundary: equal low bits, the lowest crossing, and the corner of the addend. -/
theorem witness_SpliceFindsTheCycle :
    (15 ≤ 15 ∧ 111 % 16 ≤ 15 ∧ 100 % 16 ≤ 4) ∧ (0 < 98 % 16 ∧ 1 < 98 % 16 ∧ 2 ≤ 98 % 16) ∧ (0 < 97 % 16 ∧ 97 % 16 = 1) := by decide

/-- The lowest arrival cycle that carries, 7986. -/
theorem witness_CarryOnlyNearTheEndOfASecond :
    (7986#16).toNat ≤ 7999 ∧ 8000 ≤ splice itdConfig (7986#16).toNat (⟨18#32, 7#8, 7986#16, 0x00020000#32, 0x00020000#32⟩ : Packet).sytCycle := by
  decide

theorem witness_ForwardDistanceIsModular :
    ((0 : Int) ≤ 196607999 ∧ (196607999 : Int) < 196608000 ∧ (0 : Int) ≤ 0 ∧ (0 : Int) < 196608000) ∧
    ((0 : Int) ≤ 0 ∧ (196607999 : Int) < 196609022) ∧ (0 : Int) < 196609022 - 196608000 ∧ (0 : Int) + 196608000 ≤ 196608000 := by decide

/-- Each range at its two ends. -/
theorem witness_OffsetGapCases :
    [gap3072 0 1, gap3072 0 3071, gap3072 0 3072, gap3072 1 0, gap3072 3072 0, gap3072 3073 0, gap3072 5 5] =
      [1, 3071, 3072, 3071, 0, -1, 3072] := by decide

/-- Each arm at its two ends: the plain difference, the short way round, half the domain, the long way round. -/
theorem witness_CircularDifferenceCases :
    ((-98304000 : ℚ) < 0 - (98303999 : ℤ) ∧ (0 : ℚ) - (98303999 : ℤ) < 98304000) ∧
    ((-98304000 : ℚ) < 98303999 - (0 : ℤ) ∧ (98303999 : ℚ) - (0 : ℤ) < 98304000) ∧
    ((-196608000 : ℚ) < 0 - (196607999 : ℤ) ∧ (0 : ℚ) - (196607999 : ℤ) < -98304000) ∧
    ((-196608000 : ℚ) < 0 - (98304001 : ℤ) ∧ (0 : ℚ) - (98304001 : ℤ) < -98304000) ∧
    (0 : ℚ) - (98304000 : ℤ) = -98304000 ∧ (98304000 : ℚ) ≤ 98304000 - (0 : ℤ) ∧
    (0 : ℚ) - (196608000 : ℤ) ≤ -196608000 ∧ (0 : ℚ) - (196609023 : ℤ) ≤ -196608000 := by norm_num

theorem witness_AccumulatorReducesOnce :
    28901526381 ≤ 196609023 * 147 ∧ (⟨0x00#8, 32000, 8⟩ : RateRow) ∈ itdConfig.rateTable ∧
    advance itdConfig 28901526381 ⟨0x00#8, 32000, 8⟩ + 28901376000 = 28901526381 + increment itdConfig ⟨0x00#8, 32000, 8⟩ ∧
    advance itdConfig 0 ⟨0x00#8, 32000, 8⟩ = increment itdConfig ⟨0x00#8, 32000, 8⟩ := by decide

theorem witness_DriftIsExactRationalArithmetic :
    itdConfig.wellFormed = true ∧ countBlocks itdConfig packetV28 afterV10 = .ok ⟨100#16, 8, 8, 8⟩ ∧ packetV28.syt ≠ noSyt ∧
    rateOf itdConfig packetV28.sfc = some ⟨0x01#8, 44100, 8⟩ ∧ afterV10.lastAccum = some 10884676152 := by decide

theorem witness_AccumulatorIsFreeRunning : afterV10.lastAccum = some 10884676152 ∧
    accumulatorSteps itdConfig [packetV28, packetV11, packetV40] afterV10 = 655360 ∧
    (runPackets itdConfig [packetV28, packetV11, packetV40] afterV10).lastAccum = some 10885331512 := by decide

/-- Property S7: timestamps 100 and 4196. -/
theorem witness_RegularStepHasNoDrift :
    itdConfig.wellFormed = true ∧ countBlocks itdConfig packetS7b (midStream 0#16 0 100 100 14700) = .ok ⟨0#16, 8, 8, 8⟩ ∧
    packetS7b.syt ≠ noSyt ∧ rateOf itdConfig packetS7b.sfc = some ⟨0x02#8, 48000, 8⟩ ∧
    (midStream 0#16 0 100 100 14700).lastAccum = some (100 * subtickDen itdConfig) ∧
    tstampOf itdConfig packetS7b = (100 + 4096) % 196608000 := by decide

theorem witness_FirstValidRecordIsABaseline : ∃ t rec side, exec packetV10.instr State.reset = .next t ∧
    t.rspPort = State.reset.rspPort ++ [.record rec] ∧ rec.ts = some side ∧
    State.reset.lastTstamp = none ∧ State.reset.lastDelay = none ∧ State.reset.lastAccum = none :=
  ⟨_, _, _, rfl, rfl, rfl, rfl, rfl, rfl⟩

theorem witness_SamePacketTwice : ∃ t u rec1 rec2, exec packetV10.instr State.reset = .next t ∧
    t.rspPort = State.reset.rspPort ++ [.record rec1] ∧ packetV10.syt ≠ noSyt ∧ exec packetV10.instr t = .next u ∧
    u.rspPort = t.rspPort ++ [.record rec2] :=
  ⟨_, _, _, _, rfl, rfl, by decide, rfl, rfl⟩

theorem witness_ElapseIsForwardDistance : ∃ t rec side, afterV10.lastTstamp = some 74045416 ∧ 74045416 < 196608000 ∧
    packetV28.tOffset < 3072 ∧ exec packetV28.instr afterV10 = .next t ∧ t.rspPort = afterV10.rspPort ++ [.record rec] ∧
    rec.ts = some side :=
  ⟨_, _, _, rfl, by decide, by decide, rfl, rfl, rfl⟩

/-- A state with every register set that has the invariants. -/
theorem witness_inv (ws : List Word) : Inv itdConfig { afterV10 with cmdPort := ws } where
  flags := ⟨rfl, rfl⟩
  fresh h := by cases h
  range :=
    { chan := (by decide : 0 < 2 ^ 32)
      count := (by decide : 0 < 2 ^ 64)
      tstamp := fun v h => by cases h; decide
      delay := fun v h => by cases h; decide
      accum := fun v h => by cases h; decide }

theorem witness_EveryStepKeepsTheInvariants :
    (Inv itdConfig { afterV10 with cmdPort := encode packetV28.instr } ∧
      ∃ t, step { afterV10 with cmdPort := encode packetV28.instr } = .next t) ∧
    ({ itdConfig with rollAdd := 16 } : Config).wellFormed = true ∧
    Inv { itdConfig with rollAdd := 16 } { afterV10 with cmdPort := encode packetV28.instr } ∧
    ∃ t, stepWith { itdConfig with rollAdd := 16 } { afterV10 with cmdPort := encode packetV28.instr } = .next t :=
  ⟨⟨witness_inv _, _, rfl⟩, by decide, ⟨(witness_inv _).flags, (witness_inv _).fresh,
    ⟨(witness_inv _).range.chan, (witness_inv _).range.count, (witness_inv _).range.tstamp, (witness_inv _).range.delay,
      (witness_inv _).range.accum⟩⟩, _, rfl⟩

theorem witness_PacketsKeepTheInvariantsAtAnyConfig :
    itdConfig.wellFormed = true ∧ Inv itdConfig { afterV10 with cmdPort := [] } := ⟨by decide, witness_inv []⟩

/-- The three timestamp registers after one step. -/
def timestampRegisters (s : State) : Option (Option Nat × Option Int × Option Nat) :=
  match step s with
  | .next t => some (t.lastTstamp, t.lastDelay, t.lastAccum)
  | .fault _ => none
  | .refused _ => none

/-- V10 from hardware reset sets every register. -/
theorem test_first_packet : timestampRegisters (State.reset.present (encode packetV10.instr)) =
    some (some 74045416, some 10216, some 10884676152) := by decide

theorem test_first_step : ∃ t, step (State.reset.present (encode packetV10.instr)) = .next t ∧ t.lastTstamp = some 74045416 ∧
    t.lastDelay = some 10216 ∧ t.lastAccum = some 10884676152 := by
  have h := test_first_packet
  unfold timestampRegisters at h
  split at h <;> simp_all

theorem witness_NoRegisterOverflows : ∃ s, Reachable s ∧ s.lastTstamp = some 74045416 ∧ s.lastDelay = some 10216 ∧
    s.lastAccum = some 10884676152 := by
  obtain ⟨t, h, hs⟩ := test_first_step
  exact ⟨t, .step (.present _ .reset) h, hs⟩

theorem witness_StoredValuesStayInRange :
    (∃ s, Reachable s ∧ s.lastTstamp = some 74045416 ∧ s.lastDelay = some 10216 ∧ s.lastAccum = some 10884676152) ∧
    (∃ t rec, exec packetV28.instr afterV10 = .next t ∧ t.rspPort = afterV10.rspPort ++ [.record rec] ∧
      packetV28.syt ≠ noSyt ∧ packetV28.tOffset < 3072 ∧ packetV28.cycle.toNat < 8000 ∧ afterV10.lastAccum ≠ none) :=
  ⟨witness_NoRegisterOverflows, _, _, rfl, rfl, by decide, by decide, by decide, by decide⟩

theorem witness_FaultsWriteNothing : ∃ t, step { afterV10 with cmdPort := encode packetV40.instr } = .next t ∧
    t.rspPort = ({ afterV10 with cmdPort := encode packetV40.instr } : State).rspPort ++ [.fault 3#4 (.unsupportedRate 7#8)] :=
  ⟨_, rfl, rfl⟩

theorem witness_FlagsFallOnlyByInit : ∃ t, step { afterV10 with cmdPort := encode packetV28.instr } = .next t ∧
    afterV10.flags = [true, true, true, true] :=
  ⟨_, rfl, rfl⟩

theorem witness_ChanIsWrittenByInitAndReadByNothing :
    (∃ t, step (loaded [0x10000000#32, 5#32]) = .next t ∧ t.chan ≠ (loaded [0x10000000#32, 5#32]).chan) ∧
    (∃ s', run 1 (loaded [0x20000000#32, 5#32]) = .next s') := ⟨⟨_, rfl, by decide⟩, _, rfl⟩

theorem witness_ResponseFramesLoseNothing : Inv itdConfig { afterV10 with cmdPort := encode packetV28.instr } ∧
    ∃ t r, step { afterV10 with cmdPort := encode packetV28.instr } = .next t ∧
      t.rspPort = ({ afterV10 with cmdPort := encode packetV28.instr } : State).rspPort ++ [r] :=
  ⟨witness_inv _, _, _, rfl, rfl⟩

/-- Every value at the top of its column. -/
theorem witness_FittingRowIsAligned :
    ∃ t : TimestampSide, (⟨some t, 99, 999999⟩ : Record).ts = some t ∧ t.tSec < 100 ∧ t.tCycle < 10000 ∧ t.tOffset < 10000 ∧
      t.tstamp < 1000000000 ∧ -999 ≤ t.elapse ∧ t.elapse ≤ 9999 ∧ -9999 ≤ t.delay ∧ t.delay ≤ 99999 ∧ -999 ≤ t.delayGap ∧
      t.delayGap ≤ 9999 ∧ -999999 ≤ hundredths t.accumDiff ∧ hundredths t.accumDiff ≤ 9999999 ∧ 99 < 100 ∧ 999999 < 1000000 ∧
      rowChars ⟨some t, 99, 999999⟩ = "99 9999 9999 | 999999999 9999 | 99999 -999 | -9999.99 | 99 999999".toList :=
  ⟨⟨99, 9999, 9999, 999999999, 9999, 99999, -999, ⟨-999999, 100⟩⟩, by decide⟩

theorem witness_DriftRoundsToNearest : 0 < (⟨34, 147⟩ : SubTicks).den ∧ hundredths ⟨34, 147⟩ = 23 ∧ hundredths ⟨-45, 147⟩ = -31 ∧
    (0 < (⟨1, 200⟩ : SubTicks).den ∧ hundredths ⟨1, 200⟩ = 0 ∧ hundredths ⟨3, 200⟩ = 2) := by decide

/-- Section 8 of 95_test_vectors.md: one instance after the other, and back. -/
theorem witness_InstancesAreIndependent : 0 ≠ 1 ∧
    ∃ q, Platform.runSchedule [1, 0, 1] [⟨itdConfig, loaded [0x20000000#32, 7#32]⟩,
      ⟨{ itdConfig with wDb := 8 }, loaded (encode (.init 9#32) ++ encode packetV10.instr)⟩] = some q ∧
      q.length = 2 :=
  ⟨by decide, _, rfl, rfl⟩

end Sys2Proof.Tests
end

section
/-! SUPPORT. Which registers an operation and a step can change, said once for every build of the ITD (10_state.md R24). -/

namespace Sys2Proof.Machine

/-! Operations that touch the ports alone. -/

theorem sameRegisters_present (ws : List Word) (s : State) : SameRegisters s (s.present ws) :=
  ⟨rfl, rfl, rfl, rfl, rfl, rfl⟩

theorem sameRegisters_takeFrame (rest : List Word) (s : State) : SameRegisters s (s.takeFrame rest) :=
  ⟨rfl, rfl, rfl, rfl, rfl, rfl⟩

theorem sameRegisters_respond (r : Response) (s : State) : SameRegisters s (s.respond r) :=
  ⟨rfl, rfl, rfl, rfl, rfl, rfl⟩

/-- A fault writes no register (60_exceptions.md R216). -/
theorem sameRegisters_raise (op : BitVec 4) (f : ItdFault) (s : State) : SameRegisters s (s.raise op f) :=
  sameRegisters_respond (.fault op f) s

theorem sameRegisters_answerIllegal (op : BitVec 4) (rest : List Word) (s : State) :
    SameRegisters s (answerIllegal op rest s) :=
  ⟨rfl, rfl, rfl, rfl, rfl, rfl⟩

/-- States with the same registers differ in their ports alone. -/
theorem SameRegisters.eq_with_ports {s t : State} (h : SameRegisters s t) :
    t = { s with cmdPort := t.cmdPort, rspPort := t.rspPort } := by
  obtain ⟨hchan, hreset, hcount, htstamp, hdelay, haccum⟩ := h
  rw [← hchan, ← hreset, ← hcount, ← htstamp, ← hdelay, ← haccum]

/-! DPK, branch by branch (43_decode_packet.md R141). -/

section
variable {c : Config} {p : Packet} {s : State}

theorem runPacket_of_countFault {f : ItdFault} (hb : countBlocks c p s = .error f) : runPacket c p s = s.raise opDpk f := by
  simp [runPacket, hb]

theorem runPacket_of_untimed {b : BlockCount} (hb : countBlocks c p s = .ok b) (hsyt : p.syt = noSyt) :
    runPacket c p s = commitUntimed b s := by
  simp [runPacket, hb, hsyt]

theorem runPacket_of_unknownRate {b : BlockCount} (hb : countBlocks c p s = .ok b) (hsyt : p.syt ≠ noSyt)
    (hr : rateOf c p.sfc = none) : runPacket c p s = s.raise opDpk (.unsupportedRate p.sfc) := by
  simp [runPacket, hb, hsyt, hr]

theorem runPacket_of_timed {b : BlockCount} {r : RateRow} (hb : countBlocks c p s = .ok b) (hsyt : p.syt ≠ noSyt)
    (hr : rateOf c p.sfc = some r) : runPacket c p s = commitTimed c p r b s := by
  simp [runPacket, hb, hsyt, hr]

/-- A packet with a timestamp that is answered with a record has made the full commit (R160). -/
theorem runPacket_eq_commitTimed_of_record {rec : Record} (hrsp : (runPacket c p s).rspPort = s.rspPort ++ [.record rec])
    (hsyt : p.syt ≠ noSyt) : ∃ b r, runPacket c p s = commitTimed c p r b s := by
  rcases runPacket_cases c p s with ⟨f, e⟩ | ⟨b, -, hno, -⟩ | ⟨b, r, -, -, -, e⟩
  · simp [e] at hrsp
  · exact absurd hno hsyt
  · exact ⟨b, r, e⟩

end

/-! The three timestamp registers after each commit of DPK (R146, R160). -/

section
variable (c : Config) (p : Packet) (r : RateRow) (b : BlockCount) (s : State)

@[simp] theorem commitUntimed_lastTstamp : (commitUntimed b s).lastTstamp = s.lastTstamp := rfl
@[simp] theorem commitUntimed_lastDelay : (commitUntimed b s).lastDelay = s.lastDelay := rfl
@[simp] theorem commitUntimed_lastAccum : (commitUntimed b s).lastAccum = s.lastAccum := rfl

@[simp] theorem commitTimed_lastTstamp : (commitTimed c p r b s).lastTstamp = some (tstampOf c p) := rfl
@[simp] theorem commitTimed_lastDelay : (commitTimed c p r b s).lastDelay = some (delayOf p (tstampOf c p)) := rfl
@[simp] theorem commitTimed_lastAccum : (commitTimed c p r b s).lastAccum = some (accumOf c r (tstampOf c p) s) := rfl

end

/-! Operations and steps. -/

/-- All of DPK for a packet: it runs to its end (R140). -/
theorem eq_runPacket_of_exec {p : Packet} {s t : State} (h : exec p.instr s = .next t) : t = runPacket itdConfig p s :=
  (Host.Outcome.next.inj h).symm

/-- Everything a step can do to the registers: INIT constructs, a packet runs, and any other step leaves them alone (R24). -/
theorem stepWith_effect {c : Config} {s t : State} (h : stepWith c s = .next t) :
    (∃ chan rest, decode s.cmdPort = .command (.init chan) rest ∧
        t = ((s.takeFrame rest).construct c chan).respond .ok) ∨
      (∃ p rest, decode s.cmdPort = .command (Packet.instr p) rest ∧ t = runPacket c p (s.takeFrame rest)) ∨
      SameRegisters s t := by
  rcases stepBy_cases h with ⟨i, rest, hd, he⟩ | ⟨op, why, rest, -, rfl⟩
  · cases i with
    | init chan => exact .inl ⟨chan, rest, hd, (Host.Outcome.next.inj he).symm⟩
    | dpk q sec cycle cip0 cip1 =>
      exact .inr (.inl ⟨⟨q, sec, cycle, cip0, cip1⟩, rest, hd, (Host.Outcome.next.inj he).symm⟩)
    | dcs raw32 =>
      obtain rfl := Host.Outcome.next.inj he
      exact .inr (.inr ⟨rfl, rfl, rfl, rfl, rfl, rfl⟩)
  · exact .inr (.inr (sameRegisters_answerIllegal op rest s))

/-- `stepWith_effect` for the machine's own build. -/
theorem step_effect {s t : State} (h : step s = .next t) :
    (∃ chan rest, decode s.cmdPort = .command (.init chan) rest ∧
        t = ((s.takeFrame rest).construct itdConfig chan).respond .ok) ∨
      (∃ p rest, decode s.cmdPort = .command (Packet.instr p) rest ∧ t = runPacket itdConfig p (s.takeFrame rest)) ∨
      SameRegisters s t :=
  stepWith_effect ((step_eq_stepWith s).symm.trans h)

end Sys2Proof.Machine
end

section
/-! SUPPORT. The ranges of what a packet commits (10_state.md R28, R29). -/

namespace Sys2Proof.Machine

@[simp] theorem maxTstamp_eq : maxTstamp = 196609023 := rfl
@[simp] theorem minDelay_eq : minDelay = -176747520 := rfl

theorem tstampOf_le_max (c : Config) (p : Packet) : tstampOf c p ≤ maxTstamp :=
  tick_le_max (carry_fst_lt _ _) (carry_snd_lt _ _) p.tOffset_lt

theorem tstampOf_lt_domain (c : Config) {p : Packet} (ho : p.tOffset < 3072) : tstampOf c p < 196608000 :=
  tick_lt_domain (carry_fst_lt _ _) (carry_snd_lt _ _) ho

/-- The arrival tick, its second reduced and its cycle as given (43_decode_packet.md R153). -/
theorem startOf_eq (p : Packet) : startOf p = (p.sec.toNat % 8 * 8000 + p.cycle.toNat) * 3072 := by
  simp only [startOf, tick_eq, secMax_eq, Nat.add_zero]

theorem startOf_le (p : Packet) : startOf p ≤ 373355520 := by
  have := p.cycle_lt
  rw [startOf_eq]; omega

theorem startOf_lt_domain {p : Packet} (hc : p.cycle.toNat < 8000) : startOf p < 196608000 := by
  rw [startOf_eq]; omega

theorem delayOf_range (p : Packet) {tstamp : Nat} (ht : tstamp ≤ maxTstamp) :
    minDelay ≤ delayOf p tstamp ∧ delayOf p tstamp ≤ maxTstamp := by
  have hs := startOf_le p
  simp only [maxTstamp_eq, minDelay_eq, delayOf] at ht ⊢
  rcases fwd_cases (startOf p) tstamp with ⟨hle, e⟩ | ⟨hlt, e⟩ <;> rw [e] <;> omega

/-- Between two ticks of the clock domain the forward distance is in the domain (40_clock_arith.md R105). -/
theorem delayOf_mem_domain {p : Packet} {tstamp : Nat} (hc : p.cycle.toNat < 8000) (ht : tstamp < 196608000) :
    0 ≤ delayOf p tstamp ∧ delayOf p tstamp < 196608000 := by
  have hs := startOf_lt_domain hc
  rw [delayOf]
  rcases fwd_cases (startOf p) tstamp with ⟨hle, e⟩ | ⟨hlt, e⟩ <;> rw [e] <;> omega

/-- The first valid packet's prediction is its timestamp (43_decode_packet.md R157). -/
theorem accumOf_first {s : State} (h : s.lastAccum = none) (c : Config) (r : RateRow) (tstamp : Nat) :
    accumOf c r tstamp s = toSubticks c tstamp := by
  simp [accumOf, h]

/-- A later packet's prediction is the last one advanced (43_decode_packet.md R157). -/
theorem accumOf_later {s : State} {last : Nat} (h : s.lastAccum = some last) (c : Config) (r : RateRow) (tstamp : Nat) :
    accumOf c r tstamp s = advance c last r := by
  simp [accumOf, h]

/-- After the first valid packet every prediction is reduced modulo the domain. -/
theorem accumOf_lt_domain {c : Config} (hc : c.wellFormed = true) {s : State} (hs : s.lastAccum ≠ none) (r : RateRow)
    (tstamp : Nat) : accumOf c r tstamp s < 196608000 * subtickDen c := by
  obtain ⟨last, hlast⟩ := Option.ne_none_iff_exists'.1 hs
  rw [accumOf_later hlast]
  exact advance_lt hc last r

theorem accumOf_le_max {c : Config} (hc : c.wellFormed = true) (r : RateRow) {tstamp : Nat} (ht : tstamp ≤ maxTstamp)
    (s : State) : accumOf c r tstamp s ≤ maxTstamp * subtickDen c := by
  by_cases hs : s.lastAccum = none
  · rw [accumOf_first hs]
    exact Nat.mul_le_mul_right _ ht
  · have hdom : 196608000 * subtickDen c ≤ maxTstamp * subtickDen c := Nat.mul_le_mul_right _ (by decide)
    exact (accumOf_lt_domain hc hs r tstamp).le.trans hdom

/-- The counter a packet commits fits its register: step 1 has tested the reported one (43_decode_packet.md R145). -/
theorem countBlocks_running_lt {c : Config} {p : Packet} {s : State} {b : BlockCount} (hb : countBlocks c p s = .ok b) :
    b.running < 2 ^ c.wDb := by
  obtain ⟨-, -, hreport, rfl⟩ := countBlocks_ok hb
  exact (accumulateBlocks_running_le _ _ _).trans_lt hreport

end Sys2Proof.Machine
end

section
/-! SUPPORT. The invariants of 10_state.md section 2, operation by operation (R25, R26, R28). -/

namespace Sys2Proof.Machine

section
variable {c : Config} {s t : State}

/-- The invariants speak of the registers alone. -/
theorem Inv.of_sameRegisters (hi : Inv c s) (h : SameRegisters s t) : Inv c t := by
  obtain ⟨hflags, hfresh, hchan, hcount, htstamp, hdelay, haccum⟩ := hi
  rw [h.eq_with_ports]
  exact ⟨hflags, hfresh, hchan, hcount, htstamp, hdelay, haccum⟩

/-- With nothing counted and no timestamp register set, only the range of `CHAN` is left to ask. -/
theorem inv_of_unset (hchan : s.chan < 2 ^ c.wChan) (hcount : s.dbCount = 0) (htstamp : s.lastTstamp = none)
    (hdelay : s.lastDelay = none) (haccum : s.lastAccum = none) : Inv c s where
  flags := by simp [FlagsEqual, htstamp, hdelay, haccum]
  fresh := by simp [FreshCounter, hcount, htstamp, hdelay, haccum]
  range :=
    { chan := hchan
      count := hcount ▸ Nat.two_pow_pos _
      tstamp := by simp [htstamp]
      delay := by simp [hdelay]
      accum := by simp [haccum] }

/-- INIT makes the invariants true, whatever was there before (R35). -/
theorem inv_construct (c : Config) (chan : BitVec 32) (s : State) : Inv c (s.construct c chan) :=
  inv_of_unset (chanValue_lt c chan) rfl rfl rfl rfl

theorem inv_reset (c : Config) : Inv c State.reset := inv_of_unset (Nat.two_pow_pos _) rfl rfl rfl rfl

theorem Inv.commitBlocks (hi : Inv c s) (resetCycle : BitVec 16) {running : Nat} (hr : running < 2 ^ c.wDb) :
    Inv c (s.commitBlocks resetCycle running) where
  flags := hi.flags
  fresh := nofun
  range := { hi.range with count := hr }

/-- The three timestamp registers are set together, and only once `RESET_CYCLE` is (R25, R26). -/
theorem Inv.commitTimestamp (hi : Inv c s) (hv : s.resetCycleV = true) {tstamp accum : Nat} {delay : Int}
    (ht : tstamp ≤ maxTstamp) (hd : minDelay ≤ delay ∧ delay ≤ maxTstamp) (ha : accum ≤ maxTstamp * subtickDen c) :
    Inv c (s.commitTimestamp tstamp delay accum) where
  flags := ⟨rfl, rfl⟩
  fresh := fun hf => Bool.noConfusion (hv.symm.trans hf)
  range :=
    { chan := hi.range.chan
      count := hi.range.count
      tstamp := fun _ e => Option.some.inj e ▸ ht
      delay := fun _ e => Option.some.inj e ▸ hd
      accum := fun _ e => Option.some.inj e ▸ ha }

theorem Inv.commitUntimed {b : BlockCount} (hi : Inv c s) (hr : b.running < 2 ^ c.wDb) :
    Inv c (commitUntimed b s) :=
  (hi.commitBlocks b.resetCycle hr).of_sameRegisters (sameRegisters_respond _ _)

theorem Inv.commitTimed {b : BlockCount} (hc : c.wellFormed = true) (hi : Inv c s) (p : Packet) (r : RateRow)
    (hr : b.running < 2 ^ c.wDb) : Inv c (commitTimed c p r b s) :=
  have ht := tstampOf_le_max c p
  ((hi.commitBlocks b.resetCycle hr).commitTimestamp rfl ht (delayOf_range p ht) (accumOf_le_max hc r ht s)).of_sameRegisters
    (sameRegisters_respond _ _)

/-- A packet keeps the invariants, whichever of its three ends it comes to. -/
theorem Inv.runPacket (hc : c.wellFormed = true) (hi : Inv c s) (p : Packet) : Inv c (runPacket c p s) := by
  rcases runPacket_cases c p s with ⟨f, e⟩ | ⟨b, hb, -, e⟩ | ⟨b, r, hb, -, -, e⟩ <;> rw [e]
  · exact hi.of_sameRegisters (sameRegisters_raise opDpk f s)
  · exact hi.commitUntimed (countBlocks_running_lt hb)
  · exact hi.commitTimed hc p r (countBlocks_running_lt hb)

theorem Inv.stepWith (hc : c.wellFormed = true) (hi : Inv c s) (h : stepWith c s = .next t) : Inv c t := by
  rcases stepWith_effect h with ⟨chan, rest, -, rfl⟩ | ⟨p, rest, -, rfl⟩ | hsame
  · exact (inv_construct c chan _).of_sameRegisters (sameRegisters_respond _ _)
  · exact (hi.of_sameRegisters (sameRegisters_takeFrame rest s)).runPacket hc p
  · exact hi.of_sameRegisters hsame

/-- `Inv.stepWith` for the machine's own build. -/
theorem Inv.step (hi : Inv itdConfig s) (h : step s = .next t) : Inv itdConfig t :=
  hi.stepWith itdConfig_wellFormed ((step_eq_stepWith s).symm.trans h)

/-- The invariants hold along every run, whatever words the host presents and when. -/
theorem Reachable.inv (h : Reachable s) : Inv itdConfig s := by
  induction h with
  | reset => exact inv_reset itdConfig
  | present ws _ ih => exact ih.of_sameRegisters (sameRegisters_present ws _)
  | step _ hstep ih => exact ih.step hstep

end

/-- Settles O47, from what each operation does to the invariants. -/
theorem everyStepKeepsTheInvariants : Obligations.EveryStepKeepsTheInvariants :=
  ⟨fun _ _ hi h => hi.step h, fun _ _ _ hc hi h => hi.stepWith hc h⟩

/-- Settles O48. -/
theorem packetsKeepTheInvariantsAtAnyConfig : Obligations.PacketsKeepTheInvariantsAtAnyConfig :=
  fun _ p _ hc hi => hi.runPacket hc p

/-- Settles O46. -/
theorem invariantsHoldAtReset : Obligations.InvariantsHoldAtReset := inv_reset

/-- Settles O49: the wide ranges from the invariant, the narrow ones from what the full commit stores. -/
theorem storedValuesStayInRange : Obligations.StoredValuesStayInRange := by
  refine ⟨fun s hs => ?_, fun p s t rec hexec hrsp hsyt => ?_⟩
  · obtain ⟨-, -, htstamp, hdelay, haccum⟩ := hs.inv.range
    rw [subtickDen_itdConfig] at haccum
    exact ⟨htstamp, hdelay, haccum⟩
  · obtain rfl := eq_runPacket_of_exec hexec
    obtain ⟨b, r, e⟩ := runPacket_eq_commitTimed_of_record hrsp hsyt
    simp only [e, commitTimed_lastTstamp, commitTimed_lastDelay, commitTimed_lastAccum]
    refine ⟨fun ho => ⟨_, rfl, tstampOf_lt_domain _ ho⟩, fun ho hc => ⟨_, rfl, ?_⟩, fun hs => ⟨_, rfl, ?_⟩⟩
    · exact delayOf_mem_domain hc (tstampOf_lt_domain _ ho)
    · simpa only [subtickDen_itdConfig] using accumOf_lt_domain itdConfig_wellFormed hs r (tstampOf itdConfig p)

/-- Settles O50: the ranges of the invariant are inside the register widths of R21. -/
theorem noRegisterOverflows : Obligations.NoRegisterOverflows := by
  intro s hs
  obtain ⟨hchan, hcount, htstamp, hdelay, haccum⟩ := hs.inv.range
  simp only [maxTstamp_eq, minDelay_eq, subtickDen_itdConfig] at htstamp hdelay haccum
  refine ⟨hchan, hcount, fun v hv => ?_, fun d hd => ?_, fun a ha => ?_⟩
  · have := htstamp v hv; omega
  · have := hdelay d hd; omega
  · have := haccum a ha; omega

end Sys2Proof.Machine
end

section
/-! SUPPORT. What DPK leaves unchanged, and the valid flags along a step (10_state.md R24, R27). -/

namespace Sys2Proof.Machine

/-- Settles O30, by the three ends a packet can come to. -/
theorem dpkFrame : Obligations.DpkFrame := by
  intro p s t hexec
  obtain rfl := eq_runPacket_of_exec hexec
  obtain ⟨hchan, hcmd, -⟩ := runPacket_frame itdConfig p s
  refine ⟨hchan, hcmd, ?_⟩
  rcases runPacket_cases itdConfig p s with ⟨f, e⟩ | ⟨b, -, -, e⟩ | ⟨b, r, -, hsyt, -, e⟩ <;> rw [e]
  · exact ⟨fun _ => ⟨rfl, rfl, rfl⟩, _, rfl, .inr ⟨⟨f, rfl⟩, sameRegisters_raise opDpk f s⟩⟩
  · exact ⟨fun _ => ⟨commitUntimed_lastTstamp b s, commitUntimed_lastDelay b s, commitUntimed_lastAccum b s⟩, _, rfl,
      .inl ⟨_, rfl⟩⟩
  · exact ⟨fun hno => absurd hno hsyt, _, rfl, .inl ⟨_, rfl⟩⟩

/-- Every flag that is 1 in `s` is 1 in `t`. -/
def KeepsFlags (s t : State) : Prop :=
  (s.resetCycleV = true → t.resetCycleV = true) ∧ (s.lastTstampV = true → t.lastTstampV = true) ∧
    (s.lastDelayV = true → t.lastDelayV = true) ∧ (s.lastAccumV = true → t.lastAccumV = true)

theorem SameRegisters.keepsFlags {s t : State} (h : SameRegisters s t) : KeepsFlags s t := by
  rw [h.eq_with_ports]
  exact ⟨id, id, id, id⟩

/-- A packet sets flags and clears none (R32). -/
theorem runPacket_keepsFlags (c : Config) (p : Packet) (s : State) : KeepsFlags s (runPacket c p s) := by
  rcases runPacket_cases c p s with ⟨f, e⟩ | ⟨b, -, -, e⟩ | ⟨b, r, -, -, -, e⟩ <;> rw [e]
  · exact (sameRegisters_raise opDpk f s).keepsFlags
  · exact ⟨fun _ => rfl, id, id, id⟩
  · exact ⟨fun _ => rfl, fun _ => rfl, fun _ => rfl, fun _ => rfl⟩

/-- Settles O52: the only step that is not an INIT and writes a register is a packet. -/
theorem flagsFallOnlyByInit : Obligations.FlagsFallOnlyByInit := by
  intro s t h
  rcases step_effect h with ⟨chan, rest, hd, -⟩ | ⟨p, rest, -, rfl⟩ | hsame
  · exact .inl ⟨chan, rest, hd⟩
  · exact .inr (runPacket_keepsFlags itdConfig p (s.takeFrame rest))
  · exact .inr hsame.keepsFlags

/-- Settles O16. -/
theorem resetLeavesRegistersUnset : Obligations.ResetLeavesRegistersUnset :=
  ⟨rfl, rfl, rfl, rfl, rfl, rfl, rfl⟩

/-- Settles O17: at `W_CHAN = 32` construction stores the whole operand. -/
theorem initConstructsTheDecoder : Obligations.InitConstructsTheDecoder := by
  intro chan s
  have hinit : exec (.init chan) s = .next ((s.construct itdConfig chan).respond .ok) := rfl
  refine ⟨?_, by decide⟩
  rw [hinit, State.construct, chanValue_itdConfig, State.respond]

end Sys2Proof.Machine
end

section
/-! SUPPORT. `CHAN` is read by nothing: every operation, step and run commutes with changing it (10_state.md R23). -/

namespace Sys2Proof.Machine

/-- The state with another channel identifier. -/
def State.withChan (v : Nat) (s : State) : State := { s with chan := v }

section
variable (v : Nat) (s : State)

@[simp] theorem State.withChan_chan : (s.withChan v).chan = v := rfl
@[simp] theorem State.withChan_cmdPort : (s.withChan v).cmdPort = s.cmdPort := rfl
@[simp] theorem State.withChan_rspPort : (s.withChan v).rspPort = s.rspPort := rfl

theorem State.raise_withChan (op : BitVec 4) (f : ItdFault) : (s.withChan v).raise op f = (s.raise op f).withChan v := rfl

theorem countBlocks_withChan (c : Config) (p : Packet) : countBlocks c p (s.withChan v) = countBlocks c p s := rfl

theorem commitUntimed_withChan (b : BlockCount) : commitUntimed b (s.withChan v) = (commitUntimed b s).withChan v := rfl

theorem commitTimed_withChan (c : Config) (p : Packet) (r : RateRow) (b : BlockCount) :
    commitTimed c p r b (s.withChan v) = (commitTimed c p r b s).withChan v := rfl

theorem runPacket_withChan (c : Config) (p : Packet) : runPacket c p (s.withChan v) = (runPacket c p s).withChan v := by
  have hcount := countBlocks_withChan v s c p
  cases hb : countBlocks c p s with
  | error f => rw [runPacket_of_countFault hb, runPacket_of_countFault (hcount.trans hb), State.raise_withChan]
  | ok b =>
    have hb' := hcount.trans hb
    by_cases hsyt : p.syt = noSyt
    · rw [runPacket_of_untimed hb hsyt, runPacket_of_untimed hb' hsyt, commitUntimed_withChan]
    · cases hr : rateOf c p.sfc with
      | none => rw [runPacket_of_unknownRate hb hsyt hr, runPacket_of_unknownRate hb' hsyt hr, State.raise_withChan]
      | some r => rw [runPacket_of_timed hb hsyt hr, runPacket_of_timed hb' hsyt hr, commitTimed_withChan]

end

section
variable {c : Config} {s t : State}

/-- INIT ends with the same `CHAN`; the other operations keep the one they found. -/
theorem execWith_withChan {i : Instr} (h : execWith c i s = .next t) (v : Nat) :
    ∃ v', execWith c i (s.withChan v) = .next (t.withChan v') := by
  cases i with
  | init chan =>
    obtain rfl := Host.Outcome.next.inj h
    exact ⟨chanValue c chan, rfl⟩
  | dcs raw32 =>
    obtain rfl := Host.Outcome.next.inj h
    exact ⟨v, rfl⟩
  | dpk q sec cycle cip0 cip1 =>
    obtain rfl := Host.Outcome.next.inj h
    exact ⟨v, congrArg Host.Outcome.next (runPacket_withChan v s c _)⟩

theorem stepWith_withChan (h : stepWith c s = .next t) (v : Nat) :
    ∃ v', stepWith c (s.withChan v) = .next (t.withChan v') := by
  rcases stepBy_cases h with ⟨i, rest, hd, hexec⟩ | ⟨op, why, rest, hd, rfl⟩
  · obtain ⟨v', hv'⟩ := execWith_withChan hexec v
    exact ⟨v', (stepBy_of_command (s := s.withChan v) hd).trans hv'⟩
  · exact ⟨v, stepBy_of_illegal (s := s.withChan v) hd⟩

theorem step_withChan (h : step s = .next t) (v : Nat) : ∃ v', step (s.withChan v) = .next (t.withChan v') := by
  rw [step_eq_stepWith] at h
  simpa only [step_eq_stepWith] using stepWith_withChan h v

theorem run_withChan {n : Nat} (h : run n s = .next t) (v : Nat) :
    ∃ v', run n (s.withChan v) = .next (t.withChan v') := by
  induction n generalizing s v with
  | zero =>
    obtain rfl := Host.Outcome.next.inj h
    exact ⟨v, rfl⟩
  | succ n ih =>
    obtain ⟨u, hstep, hrun⟩ := run_succ_cases h
    obtain ⟨w, hw⟩ := step_withChan hstep v
    obtain ⟨v', hv'⟩ := ih hrun w
    exact ⟨v', (run_succ_of_next hw).trans hv'⟩

/-- A step that changes `CHAN` is an INIT, and stores its operand. -/
theorem init_of_step_chan_ne (h : step s = .next t) (hne : t.chan ≠ s.chan) :
    ∃ chan rest, decode s.cmdPort = .command (.init chan) rest ∧ t.chan = chan.toNat := by
  rcases step_effect h with ⟨chan, rest, hd, rfl⟩ | ⟨p, rest, -, rfl⟩ | ⟨hchan, -⟩
  · exact ⟨chan, rest, hd, chanValue_itdConfig chan⟩
  · obtain ⟨hchan, -⟩ := runPacket_frame itdConfig p (s.takeFrame rest)
    exact absurd hchan hne
  · exact absurd hchan hne

end

/-- Settles O53: the writer by the effect of a step, the absence of a reader by induction on the run. -/
theorem chanIsWrittenByInitAndReadByNothing : Obligations.ChanIsWrittenByInitAndReadByNothing :=
  ⟨fun _ _ h hne => init_of_step_chan_ne h hne, fun _ _ _ v h => run_withChan h v⟩

end Sys2Proof.Machine
end

section
/-! SUPPORT. One frame at the front of the command port: what the decoder reads from it, whatever words come after it
(30_encoding.md R70 to R77; 20_memory.md R54, R55). -/

namespace Sys2Proof

/-- The operation number of an operation (R71); `opOf_header` says that it is the one in its header. -/
def Instr.op : Instr → BitVec 4
  | .init _ => opInit
  | .dcs _ => opDcs
  | .dpk _ _ _ _ _ => opDpk

/-! The header of a DPK, field by field (R74). The constant gives the operation number and leaves the other fields clear. -/

section
variable (q : BitVec 32) (sec : BitVec 8) (cycle : BitVec 16) (cip0 cip1 : BitVec 32)

theorem opOf_header_dpk : opOf (header (.dpk q sec cycle cip0 cip1)) = opDpk := by
  have hconst : ∀ i, (h : i < 4) → (0x30000000#32).getLsbD (28 + i) = (3#4)[i] := by decide
  ext i hi
  have hsec : sec.getLsbD (28 + i - 16) = false := BitVec.getLsbD_of_ge _ _ (by omega)
  have hcycle : cycle.getLsbD (28 + i) = false := BitVec.getLsbD_of_ge _ _ (by omega)
  simp [opOf, header, opDpk, hconst i hi, hsec, hcycle]

theorem dpkReserved_header : dpkReserved (header (.dpk q sec cycle cip0 cip1)) = 0#4 := by
  have hconst : ∀ i < 4, (0x30000000#32).getLsbD (24 + i) = false := by decide
  ext i hi
  have hsec : sec.getLsbD (24 + i - 16) = false := BitVec.getLsbD_of_ge _ _ (by omega)
  have hcycle : cycle.getLsbD (24 + i) = false := BitVec.getLsbD_of_ge _ _ (by omega)
  simp [dpkReserved, header, hconst i hi, hsec, hcycle]

theorem secField_header : secField (header (.dpk q sec cycle cip0 cip1)) = sec := by
  have hconst : ∀ i, (h : i < 8) → (0x30000000#32)[16 + i] = false := by decide
  ext i hi
  have hword : 16 + i < 32 := by omega
  simp [secField, header, hconst i hi, hword, BitVec.getLsbD_eq_getElem hi]

theorem cycleField_header : cycleField (header (.dpk q sec cycle cip0 cip1)) = cycle := by
  have hconst : ∀ i, (h : i < 16) → (0x30000000#32)[i] = false := by decide
  ext i hi
  have hword : i < 32 := by omega
  simp [cycleField, header, hconst i hi, hi, hword]

end

theorem opOf_header (i : Instr) : opOf (header i) = i.op := by
  cases i with
  | init chan => exact (by decide : opOf 0x10000000#32 = opInit)
  | dcs raw32 => exact (by decide : opOf 0x20000000#32 = opDcs)
  | dpk q sec cycle cip0 cip1 => exact opOf_header_dpk q sec cycle cip0 cip1

/-! The decoder on a whole frame, one equation per operation number. -/

section
variable {w0 : Word}

theorem decode_of_opInit (hop : opOf w0 = opInit) (w1 : Word) (rest : List Word) :
    decode (w0 :: w1 :: rest) =
      if shortReserved w0 = 0#28 then .command (.init w1) rest else .illegal opInit .reservedBit rest := by
  simp [decode, hop]

theorem decode_of_opDcs (hop : opOf w0 = opDcs) (w1 : Word) (rest : List Word) :
    decode (w0 :: w1 :: rest) =
      if shortReserved w0 = 0#28 then .command (.dcs w1) rest else .illegal opDcs .reservedBit rest := by
  have hne : opDcs ≠ opInit := by decide
  simp [decode, hop, hne]

theorem decode_of_opDpk (hop : opOf w0 = opDpk) (w1 w2 w3 : Word) (rest : List Word) :
    decode (w0 :: w1 :: w2 :: w3 :: rest) =
      if dpkReserved w0 = 0#4 then .command (.dpk w1 (secField w0) (cycleField w0) w2 w3) rest
      else .illegal opDpk .reservedBit rest := by
  have hne : opDpk ≠ opInit ∧ opDpk ≠ opDcs := by decide
  simp [decode, hop, hne]

theorem decode_of_unknownOp (hop : opOf w0 ≠ opInit ∧ opOf w0 ≠ opDcs ∧ opOf w0 ≠ opDpk) (rest : List Word) :
    decode (w0 :: rest) = .illegal (opOf w0) .unknownOp rest := by
  simp [decode, hop]

end

/-- The words of an operation decode to it, and leave the words after them (R70 to R75). -/
theorem decode_encode_append (i : Instr) (rest : List Word) : decode (encode i ++ rest) = .command i rest := by
  cases i with
  | init chan =>
    have hclear : shortReserved 0x10000000#32 = 0#28 := by decide
    exact (decode_of_opInit (opOf_header (.init chan)) chan rest).trans (if_pos hclear)
  | dcs raw32 =>
    have hclear : shortReserved 0x20000000#32 = 0#28 := by decide
    exact (decode_of_opDcs (opOf_header (.dcs raw32)) raw32 rest).trans (if_pos hclear)
  | dpk q sec cycle cip0 cip1 =>
    have h := decode_of_opDpk (opOf_header_dpk q sec cycle cip0 cip1) q cip0 cip1 rest
    rw [dpkReserved_header, secField_header, cycleField_header, if_pos rfl] at h
    exact h

/-- A whole frame is consumed at the length its header gives and carries its operation number, legal or not (R75 to R77). -/
theorem decode_whole {w0 : Word} {ops : List Word} (hlen : frameLength (opOf w0) ≤ ops.length + 1) :
    (∃ i, i.op = opOf w0 ∧ decode (w0 :: ops) = .command i ((w0 :: ops).drop (frameLength (opOf w0)))) ∨
      ∃ why, decode (w0 :: ops) = .illegal (opOf w0) why ((w0 :: ops).drop (frameLength (opOf w0))) := by
  rcases decode_cases (w0 :: ops) with ⟨hnil, -⟩ | ⟨v0, w1, rest, hws, hop, -, e⟩ | ⟨v0, w1, rest, hws, hop, -, e⟩ |
    ⟨v0, w1, w2, w3, rest, hws, hop, -, e⟩ | ⟨v0, w1, rest, hws, hop, -, e⟩ | ⟨v0, w1, w2, w3, rest, hws, hop, -, e⟩ |
    ⟨v0, rest, hws, ⟨h1, h2, h3⟩, e⟩ | ⟨v0, rest, hws, hshort, -⟩
  · cases hnil
  all_goals obtain ⟨rfl, rfl⟩ := List.cons.inj hws
  · exact .inl ⟨.init w1, hop.symm, by rw [e, hop]; rfl⟩
  · exact .inl ⟨.dcs w1, hop.symm, by rw [e, hop]; rfl⟩
  · exact .inl ⟨.dpk w1 (secField w0) (cycleField w0) w2 w3, hop.symm, by rw [e, hop]; rfl⟩
  · exact .inr ⟨.reservedBit, by rw [e]; rcases hop with hop | hop <;> rw [hop] <;> rfl⟩
  · exact .inr ⟨.reservedBit, by rw [e, hop]; rfl⟩
  · exact .inr ⟨.unknownOp, by rw [e, frameLength_other h1 h2 h3]; rfl⟩
  · exact absurd hlen (Nat.not_le.2 hshort)

/-- What the decoder found, with more words waiting behind it. -/
def Decoded.present (ws : List Word) : Decoded → Decoded
  | .command i rest => .command i (rest ++ ws)
  | .illegal op why rest => .illegal op why (rest ++ ws)
  | .incomplete => .incomplete
  | .empty => .empty

/-- Words presented behind a whole frame do not change how it decodes; without one there is nothing to keep (R54, R55). -/
theorem decode_append (front ws : List Word) :
    decode front = .empty ∨ decode front = .incomplete ∨ decode (front ++ ws) = (decode front).present ws := by
  rcases decode_cases front with ⟨-, e⟩ | ⟨w0, w1, rest, rfl, hop, hr, -⟩ | ⟨w0, w1, rest, rfl, hop, hr, -⟩ |
    ⟨w0, w1, w2, w3, rest, rfl, hop, hr, -⟩ | ⟨w0, w1, rest, rfl, hop | hop, hr, -⟩ |
    ⟨w0, w1, w2, w3, rest, rfl, hop, hr, -⟩ | ⟨w0, rest, rfl, hop, -⟩ | ⟨w0, ops, -, -, e⟩
  · exact .inl e
  · exact .inr (.inr (by simp [decode_of_opInit hop, hr, Decoded.present]))
  · exact .inr (.inr (by simp [decode_of_opDcs hop, hr, Decoded.present]))
  · exact .inr (.inr (by simp [decode_of_opDpk hop, hr, Decoded.present]))
  · exact .inr (.inr (by simp [decode_of_opInit hop, hr, Decoded.present]))
  · exact .inr (.inr (by simp [decode_of_opDcs hop, hr, Decoded.present]))
  · exact .inr (.inr (by simp [decode_of_opDpk hop, hr, Decoded.present]))
  · exact .inr (.inr (by simp [decode_of_unknownOp hop, Decoded.present]))
  · exact .inr (.inl e)

theorem decode_append_of_command {front rest : List Word} {i : Instr} (h : decode front = .command i rest)
    (ws : List Word) : decode (front ++ ws) = .command i (rest ++ ws) := by
  simpa [h, Decoded.present] using decode_append front ws

theorem decode_append_of_illegal {front rest : List Word} {op : BitVec 4} {why : IllegalHeader}
    (h : decode front = .illegal op why rest) (ws : List Word) :
    decode (front ++ ws) = .illegal op why (rest ++ ws) := by
  simpa [h, Decoded.present] using decode_append front ws

end Sys2Proof
end

section
/-! SUPPORT. An operation and its command port: no operation reads or writes the words waiting there, so a step is its
operation's meaning, and a presented program runs as its meanings (20_memory.md R54, R55, R58). -/

namespace Sys2Proof.Machine

section
variable (c : Config) (s : State) (ws : List Word)

theorem countBlocks_takeFrame (p : Packet) : countBlocks c p (s.takeFrame ws) = countBlocks c p s := rfl

/-- DPK leaves the waiting words alone and does not look at them, whichever of its ends it comes to. -/
theorem runPacket_takeFrame (p : Packet) : runPacket c p (s.takeFrame ws) = (runPacket c p s).takeFrame ws := by
  unfold runPacket
  rw [countBlocks_takeFrame]
  split
  · rfl
  · split
    · rfl
    · split <;> rfl

end

/-- Every operation ends in a next state that has, and depends on, none of the words waiting when it began (R54, R55). -/
theorem execWith_takeFrame (c : Config) (i : Instr) (s : State) :
    ∃ u : State, ∀ ws, execWith c i (s.takeFrame ws) = .next (u.takeFrame ws) := by
  cases i with
  | init chan => exact ⟨runInit c chan s, fun _ => rfl⟩
  | dcs raw32 => exact ⟨runCycleStart raw32 s, fun _ => rfl⟩
  | dpk q sec cycle cip0 cip1 =>
    exact ⟨runPacket c ⟨q, sec, cycle, cip0, cip1⟩ s, fun ws => congrArg Host.Outcome.next (runPacket_takeFrame c s ws _)⟩

/-- `execWith_takeFrame` for the machine's own build. -/
theorem exec_takeFrame (i : Instr) (s : State) : ∃ u : State, ∀ ws, exec i (s.takeFrame ws) = .next (u.takeFrame ws) := by
  simpa only [exec_eq_execWith] using execWith_takeFrame itdConfig i s

/-- An operation whose words are at the front of the port runs by its meaning, the words after them still waiting. -/
theorem stepBy_of_encode {meaning : Instr → State → Host.Outcome State Fault Refusal} {s : State} {i : Instr}
    {rest : List Word} (h : s.cmdPort = encode i ++ rest) : stepBy meaning s = meaning i (s.takeFrame rest) :=
  stepBy_of_command (h ▸ decode_encode_append i rest)

/-- Settles O10. -/
theorem stepRunsTheDecodedOperation : Obligations.StepRunsTheDecodedOperation :=
  ⟨fun _ _ _ hd => step_of_command hd, fun _ _ _ hport => stepBy_of_encode hport, fun _ _ _ _ hport => stepBy_of_encode hport,
    exec_eq_execWith, step_eq_stepWith⟩

/-- Settles O14: the frame decodes as before, and its operation does not see the words behind it. -/
theorem laterWordsDoNotChangeAStep : Obligations.LaterWordsDoNotChangeAStep := by
  intro s t ws h
  rcases step_cases h with ⟨i, rest, hd, hexec⟩ | ⟨op, why, rest, hd, rfl⟩
  · obtain ⟨u, hu⟩ := exec_takeFrame i s
    obtain rfl := Host.Outcome.next.inj ((hu rest).symm.trans hexec)
    exact (step_of_command (s := s.present ws) (decode_append_of_command hd ws)).trans (hu (rest ++ ws))
  · exact step_of_illegal (s := s.present ws) (decode_append_of_illegal hd ws)

theorem execAll_cons_of_next {i : Instr} {s t : State} (h : exec i s = .next t) (is : List Instr) :
    execAll (i :: is) s = execAll is t := by
  simp only [execAll, h]

/-- Settles O15, by induction on the program: its first operation runs the same before the rest of it as before `rest`. -/
theorem runOfPresentedProgramIsItsMeanings : Obligations.RunOfPresentedProgramIsItsMeanings := by
  intro is rest s
  induction is generalizing s with
  | nil => exact run_zero _
  | cons i is ih =>
    obtain ⟨u, hu⟩ := exec_takeFrame i s
    have hport : programWords (i :: is) ++ rest = encode i ++ (programWords is ++ rest) := by simp [programWords]
    have hstep : step (s.takeFrame (programWords (i :: is) ++ rest)) = .next (u.takeFrame (programWords is ++ rest)) :=
      (stepBy_of_encode hport).trans (hu _)
    calc run (is.length + 1) (s.takeFrame (programWords (i :: is) ++ rest))
        = run is.length (u.takeFrame (programWords is ++ rest)) := run_succ_of_next hstep
      _ = execAll is (u.takeFrame rest) := ih u
      _ = execAll (i :: is) (s.takeFrame rest) := (execAll_cons_of_next (hu rest) is).symm

end Sys2Proof.Machine
end

section
/-! SUPPORT. The one response to a frame, and the operation number it copies (30_encoding.md R78). -/

namespace Sys2Proof.Machine

/-- The operation number a response answers (R78); `Response.frame_op` says that it is the one in its header. -/
def Response.op : Response → BitVec 4
  | .ok => opInit
  | .position _ _ => opDcs
  | .record _ => opDpk
  | .fault op _ => op

theorem opOf_responseHeader (op code : BitVec 4) (info : BitVec 8) (tsv : BitVec 1) :
    opOf (responseHeader op code info tsv) = op :=
  calc (op ++ code ++ info ++ 0#15 ++ tsv).extractLsb' 28 4
      = (op ++ code ++ info ++ 0#15).extractLsb' 27 4 := BitVec.extractLsb'_append_eq_of_le (by decide)
    _ = (op ++ code ++ info).extractLsb' 12 4 := BitVec.extractLsb'_append_eq_of_le (by decide)
    _ = (op ++ code).extractLsb' 4 4 := BitVec.extractLsb'_append_eq_of_le (by decide)
    _ = op := BitVec.extractLsb'_append_eq_left

theorem Response.frame_op (r : Response) : ∃ q0 qs, r.frame = q0 :: qs ∧ opOf q0 = r.op := by
  cases r <;> exact ⟨_, _, rfl, opOf_responseHeader _ _ _ _⟩

/-- A DPK is answered as a DPK, whichever of its ends it comes to. -/
theorem runPacket_response (c : Config) (p : Packet) (s : State) :
    ∃ r, (runPacket c p s).rspPort = s.rspPort ++ [r] ∧ r.op = opDpk := by
  rcases runPacket_cases c p s with ⟨f, e⟩ | ⟨b, -, -, e⟩ | ⟨b, r, -, -, -, e⟩ <;> rw [e] <;> exact ⟨_, rfl, rfl⟩

/-- Every operation is answered once, with its own operation number, and leaves the waiting words alone (R50, R55, R78). -/
theorem exec_answer (i : Instr) (s : State) :
    ∃ t r, exec i s = .next t ∧ t.cmdPort = s.cmdPort ∧ t.rspPort = s.rspPort ++ [r] ∧ r.op = i.op := by
  cases i with
  | init chan => exact ⟨_, .ok, rfl, rfl, rfl, rfl⟩
  | dcs raw32 => exact ⟨_, .position _ _, rfl, rfl, rfl, rfl⟩
  | dpk q sec cycle cip0 cip1 =>
    obtain ⟨-, hcmd, -⟩ := runPacket_frame itdConfig ⟨q, sec, cycle, cip0, cip1⟩ s
    obtain ⟨r, hrsp, hop⟩ := runPacket_response itdConfig ⟨q, sec, cycle, cip0, cip1⟩ s
    exact ⟨_, r, rfl, hcmd, hrsp, hop⟩

/-- Settles O13: a legal frame by its operation's answer, an illegal one by its fault. -/
theorem everyWholeFrameIsAnsweredOnce : Obligations.EveryWholeFrameIsAnsweredOnce := by
  intro s w0 ops hport hlen
  have hanswer : ∃ t r, step s = .next t ∧ t.cmdPort = (w0 :: ops).drop (frameLength (opOf w0)) ∧
      t.rspPort = s.rspPort ++ [r] ∧ r.op = opOf w0 := by
    rcases decode_whole hlen with ⟨i, hi, hd⟩ | ⟨why, hd⟩ <;> rw [← hport] at hd ⊢
    · obtain ⟨t, r, hexec, hcmd, hrsp, hop⟩ := exec_answer i (s.takeFrame _)
      exact ⟨t, r, (step_of_command hd).trans hexec, hcmd, hrsp, hop.trans hi⟩
    · exact ⟨_, _, step_of_illegal hd, rfl, rfl, rfl⟩
  obtain ⟨t, r, hstep, hcmd, hrsp, hop⟩ := hanswer
  obtain ⟨q0, qs, hframe, hq0⟩ := r.frame_op
  exact ⟨t, r, q0, qs, hstep, hcmd, hrsp, hframe, hq0.trans hop⟩

end Sys2Proof.Machine
end

section
/-! SUPPORT. A packet after itself: DPK is not idempotent (20_memory.md R56, 43_decode_packet.md R163 case c). -/

namespace Sys2Proof.Machine

/-- The forward distance to the same tick is 0 (40_clock_arith.md R105). -/
@[simp] theorem fwd_self (a : Int) : fwd a a = 0 := by simp [fwd]

/-- The gap's test is strict: the same offset again is a whole cycle away (40_clock_arith.md R107). -/
@[simp] theorem gap3072_self (a : Int) : gap3072 a a = 3072 := by simp [gap3072]

theorem elapseOf_later {s : State} {last : Nat} (h : s.lastTstamp = some last) (tstamp : Nat) :
    elapseOf tstamp s = fwd last tstamp := by
  simp [elapseOf, h]

theorem delayGapOf_later {s : State} {last : Int} (h : s.lastDelay = some last) (delay : Int) :
    delayGapOf delay s = gap3072 last delay := by
  simp [delayGapOf, h]

theorem commitTimed_rspPort (c : Config) (p : Packet) (r : RateRow) (b : BlockCount) (s : State) :
    (commitTimed c p r b s).rspPort =
      s.rspPort ++ [.record { ts := some (timestampSide c p r s), dbsPerPayload := b.perPayload, dbCount := b.report }] := rfl

/-- The record of a packet with a timestamp has the timestamp side of the state it began in (R161). -/
theorem record_ts_of_timed {c : Config} {p : Packet} {s : State} {rec : Record}
    (hrsp : (runPacket c p s).rspPort = s.rspPort ++ [.record rec]) (hsyt : p.syt ≠ noSyt) :
    ∃ r, rec.ts = some (timestampSide c p r s) := by
  obtain ⟨b, r, e⟩ := runPacket_eq_commitTimed_of_record hrsp hsyt
  rw [e, commitTimed_rspPort, List.append_cancel_left_eq] at hrsp
  cases hrsp
  exact ⟨r, rfl⟩

/-- Settles O44: the second packet meets its own timestamp and delay in the registers. -/
theorem samePacketTwice : Obligations.SamePacketTwice := by
  intro p s t u rec1 rec2 hfirst hrsp1 hsyt hsecond hrsp2
  obtain rfl := eq_runPacket_of_exec hfirst
  obtain rfl := eq_runPacket_of_exec hsecond
  obtain ⟨b, r, e⟩ := runPacket_eq_commitTimed_of_record hrsp1 hsyt
  obtain ⟨r', hts⟩ := record_ts_of_timed hrsp2 hsyt
  have htstamp : (runPacket itdConfig p s).lastTstamp = some (tstampOf itdConfig p) := by rw [e, commitTimed_lastTstamp]
  have hdelay : (runPacket itdConfig p s).lastDelay = some (delayOf p (tstampOf itdConfig p)) := by
    rw [e, commitTimed_lastDelay]
  exact ⟨_, hts, (elapseOf_later htstamp _).trans (fwd_self _), (delayGapOf_later hdelay _).trans (gap3072_self _)⟩

end Sys2Proof.Machine
end

section
/-! SUPPORT. The instances of a platform: an operation of one neither reads nor writes another (20_memory.md R60). -/

namespace Sys2Proof.Machine

/-- An operation at port `j` does not see what stands at another port, and keeps it. -/
theorem Platform.stepAt_set_of_ne {j k : Nat} (hne : j ≠ k) (p : Platform) (y : Instance) :
    Platform.stepAt j (p.set k y) = (p.stepAt j).map fun q => q.set k y := by
  have hget : (p.set k y)[j]? = p[j]? := List.getElem?_set_ne hne.symm
  unfold Platform.stepAt
  rw [hget]
  rcases p[j]? with _ | x
  · rfl
  · cases hs : stepWith x.config x.state with
    | next t => simp [hs, List.set_comm _ _ hne.symm]
    | fault f => simp [hs]
    | refused r => simp [hs]

/-- Two operations of different instances in order: each steps as it would alone. -/
theorem Platform.stepAt_bind_stepAt {j k : Nat} (hne : j ≠ k) (p : Platform) :
    (p.stepAt j).bind (Platform.stepAt k) = (p.stepAt k).bind (Platform.stepAt j) := by
  rcases hj : p.stepAt j with _ | pj
  · rcases hk : p.stepAt k with _ | pk
    · rfl
    · obtain ⟨y, u, -, -, rfl⟩ := Platform.stepAt_cases hk
      simp [Platform.stepAt_set_of_ne hne, hj]
  · obtain ⟨x, t, -, -, rfl⟩ := Platform.stepAt_cases hj
    rcases hk : p.stepAt k with _ | pk
    · simp [Platform.stepAt_set_of_ne hne.symm, hk]
    · obtain ⟨y, u, -, -, rfl⟩ := Platform.stepAt_cases hk
      simp [Platform.stepAt_set_of_ne hne, Platform.stepAt_set_of_ne hne.symm, hj, hk, List.set_comm _ _ hne]

theorem Platform.runSchedule_cons_cases {k : Nat} {ks : List Nat} {p q : Platform}
    (h : Platform.runSchedule (k :: ks) p = some q) :
    ∃ m, p.stepAt k = some m ∧ Platform.runSchedule ks m = some q := by
  rcases hk : p.stepAt k with _ | m
  · simp [Platform.runSchedule, hk] at h
  · exact ⟨m, rfl, by simpa [Platform.runSchedule, hk] using h⟩

/-- A schedule keeps the number of instances. -/
theorem Platform.runSchedule_length {ks : List Nat} {p q : Platform} (h : Platform.runSchedule ks p = some q) :
    q.length = p.length := by
  induction ks generalizing p with
  | nil => obtain rfl := Option.some.inj h; rfl
  | cons k ks ih =>
    obtain ⟨m, hstep, hrun⟩ := Platform.runSchedule_cons_cases h
    obtain ⟨x, t, -, -, rfl⟩ := Platform.stepAt_cases hstep
    simpa using ih hrun

/-- Under a schedule each port makes its own run, of as many steps as the schedule names it. -/
theorem Platform.runSchedule_instance {ks : List Nat} {p q : Platform} (h : Platform.runSchedule ks p = some q) {j : Nat}
    {x : Instance} (hx : p[j]? = some x) :
    ∃ t, q[j]? = some ⟨x.config, t⟩ ∧ runWith x.config (ks.count j) x.state = .next t := by
  induction ks generalizing p x with
  | nil =>
    obtain rfl := Option.some.inj h
    exact ⟨x.state, hx, runWith_zero _ _⟩
  | cons k ks ih =>
    obtain ⟨m, hstep, hrun⟩ := Platform.runSchedule_cons_cases h
    obtain ⟨y, t, hy, hnext, rfl⟩ := Platform.stepAt_cases hstep
    by_cases hjk : k = j
    · subst hjk
      obtain rfl := Option.some.inj (hx.symm.trans hy)
      have hm : (p.set k ⟨x.config, t⟩)[k]? = some ⟨x.config, t⟩ :=
        List.getElem?_set_self (List.getElem?_eq_some_iff.1 hx).1
      obtain ⟨u, hu, hown⟩ := ih hrun hm
      exact ⟨u, hu, by rw [List.count_cons_self, runWith_succ_of_next hnext, hown]⟩
    · have hm : (p.set k ⟨y.config, t⟩)[j]? = some x := (List.getElem?_set_ne hjk).trans hx
      rw [List.count_cons_of_ne hjk]
      exact ih hrun hm

/-- Settles O60. -/
theorem instancesAreIndependent : Obligations.InstancesAreIndependent :=
  ⟨fun p _ _ hne => p.stepAt_bind_stepAt hne,
    fun _ _ _ h => ⟨Platform.runSchedule_length h, fun _ _ hx => Platform.runSchedule_instance h hx⟩⟩

end Sys2Proof.Machine
end

section
/-! SUPPORT. A header word is its fields side by side, so the frames the decoder and the opcode table accept are the encodings
(30_encoding.md R70 to R77). -/

namespace Sys2Proof

/-! The fields of a header word. -/

section
variable (w0 : Word)

theorem word_eq_shortFields : w0 = opOf w0 ++ shortReserved w0 :=
  (BitVec.extractLsb'_append_extractLsb' (w := 4) (len := 28) (x := w0)).symm

/-- The byte that the table's mask selects: the operation number over the bits reserved in `F-DPK`. -/
theorem topByte_eq : w0.extractLsb' 24 8 = opOf w0 ++ dpkReserved w0 :=
  (BitVec.extractLsb'_append_extractLsb'_eq_extractLsb' (start₂ := 28) (start₁ := 24) (len₁ := 4) (x := w0) rfl).symm

theorem word_eq_dpkFields : w0 = opOf w0 ++ dpkReserved w0 ++ (secField w0 ++ cycleField w0) :=
  calc w0 = w0.extractLsb' 24 8 ++ w0.extractLsb' 0 24 :=
      (BitVec.extractLsb'_append_extractLsb' (w := 8) (len := 24) (x := w0)).symm
    _ = opOf w0 ++ dpkReserved w0 ++ (secField w0 ++ cycleField w0) := by
      rw [topByte_eq, secField, cycleField,
        BitVec.extractLsb'_append_extractLsb'_eq_extractLsb' (start₂ := 16) (len₂ := 8) (x := w0) rfl]

end

section
variable {w0 : Word}

/-- A header word with nothing reserved set is the bare operation number (R72, R73). -/
theorem eq_of_shortReserved_clear {op : BitVec 4} (hop : opOf w0 = op) (hr : shortReserved w0 = 0#28) : w0 = op ++ 0#28 := by
  rw [word_eq_shortFields w0, hop, hr]

/-- A DPK header with nothing reserved set is the one its own two fields give (R74). -/
theorem eq_header_dpk (hop : opOf w0 = opDpk) (hr : dpkReserved w0 = 0#4) (q cip0 cip1 : Word) :
    w0 = header (.dpk q (secField w0) (cycleField w0) cip0 cip1) := by
  rw [word_eq_dpkFields (header _), opOf_header_dpk, dpkReserved_header, secField_header, cycleField_header, ← hop, ← hr]
  exact word_eq_dpkFields w0

theorem dpkFields_of_topByte (h : w0.extractLsb' 24 8 = 0x30#8) : opOf w0 = opDpk ∧ dpkReserved w0 = 0#4 := by
  rw [topByte_eq] at h
  have hop : (opOf w0 ++ dpkReserved w0).extractLsb' 4 4 = opDpk := by rw [h]; decide
  have hr : (opOf w0 ++ dpkReserved w0).extractLsb' 0 4 = 0#4 := by rw [h]; decide
  exact ⟨BitVec.extractLsb'_append_eq_left.symm.trans hop, BitVec.extractLsb'_append_eq_right.symm.trans hr⟩

end

/-- Settles O1. -/
theorem decodeOfEncodeIsTheOperation : Obligations.DecodeOfEncodeIsTheOperation := decode_encode_append

/-- Settles O2: each of the decoder's three commands fixes every field of the header. -/
theorem everyDecodedCommandIsItsEncoding : Obligations.EveryDecodedCommandIsItsEncoding := by
  intro ws i rest h
  rcases decode_cases ws with ⟨-, e⟩ | ⟨w0, w1, rest', rfl, hop, hr, e⟩ | ⟨w0, w1, rest', rfl, hop, hr, e⟩ |
    ⟨w0, w1, w2, w3, rest', rfl, hop, hr, e⟩ | ⟨w0, w1, rest', -, -, -, e⟩ | ⟨w0, w1, w2, w3, rest', -, -, -, e⟩ |
    ⟨w0, rest', -, -, e⟩ | ⟨w0, ops, -, -, e⟩ <;> cases e.symm.trans h
  · exact congrArg (· :: w1 :: rest) (eq_of_shortReserved_clear hop hr)
  · exact congrArg (· :: w1 :: rest) (eq_of_shortReserved_clear hop hr)
  · exact congrArg (· :: w1 :: w2 :: w3 :: rest) (eq_header_dpk hop hr w1 w2 w3)

/-! The rows of the opcode table (WellFormed.lean). -/

theorem and_topByteMask (w0 : Word) : w0 &&& 0xFF000000#32 = opOf w0 ++ dpkReserved w0 ++ 0#24 := by
  have hmask : 0xFF000000#32 = 0xF#4 ++ 0xF#4 ++ 0#24 := by decide
  have hones : ∀ x : BitVec 4, x &&& 0xF#4 = x := by decide
  conv_lhs => rw [word_eq_dpkFields w0, hmask]
  rw [BitVec.and_append, BitVec.and_append, hones, hones]
  exact congrArg _ (BitVec.and_zero ..)

/-- The third row's match and mask are R77's test of a DPK header. -/
theorem accepts_dpkRow_iff (w0 : Word) :
    OpcodeRow.accepts ⟨0x30000000#32, 0xFF000000#32, 4⟩ w0 = true ↔ opOf w0 = opDpk ∧ dpkReserved w0 = 0#4 := by
  rw [OpcodeRow.accepts, beq_iff_eq, and_topByteMask]
  constructor
  · intro h
    refine dpkFields_of_topByte ?_
    rw [topByte_eq, ← BitVec.extractLsb'_append_eq_left (a := opOf w0 ++ dpkReserved w0) (b := 0#24), h]
    decide
  · rintro ⟨hop, hr⟩
    rw [hop, hr]
    decide

/-- The first two rows have a full mask: they match their pattern alone. -/
theorem accepts_fullMask_iff (pattern w0 : Word) (words : Nat) :
    OpcodeRow.accepts ⟨pattern, 0xFFFFFFFF#32, words⟩ w0 = true ↔ w0 = pattern := by
  rw [OpcodeRow.accepts, beq_iff_eq, show 0xFFFFFFFF#32 = BitVec.allOnes 32 from by decide, BitVec.and_allOnes]

/-- A well-formed frame, row by row of the opcode table. -/
theorem wellFormed_cons_iff (w0 : Word) (ops : List Word) :
    Frame.wellFormed (w0 :: ops) = true ↔
      (w0 = 0x10000000#32 ∧ ops.length = 1) ∨ (w0 = 0x20000000#32 ∧ ops.length = 1) ∨
        ((opOf w0 = opDpk ∧ dpkReserved w0 = 0#4) ∧ ops.length = 3) := by
  simp only [Frame.wellFormed, opcodeTable, List.any_cons, List.any_nil, Bool.or_false, Bool.or_eq_true, Bool.and_eq_true,
    accepts_fullMask_iff, accepts_dpkRow_iff, beq_iff_eq, Nat.reduceEqDiff]

/-- Settles O3, row by row. -/
theorem tableFramesAreTheEncodings : Obligations.TableFramesAreTheEncodings := by
  intro f
  constructor
  · intro h
    rcases f with _ | ⟨w0, ops⟩
    · cases h
    rcases (wellFormed_cons_iff w0 ops).1 h with ⟨rfl, hlen⟩ | ⟨rfl, hlen⟩ | ⟨⟨hop, hr⟩, hlen⟩
    · obtain ⟨w1, rfl⟩ := List.length_eq_one_iff.1 hlen
      exact ⟨.init w1, rfl⟩
    · obtain ⟨w1, rfl⟩ := List.length_eq_one_iff.1 hlen
      exact ⟨.dcs w1, rfl⟩
    · obtain ⟨w1, w2, w3, rfl⟩ := List.length_eq_three.1 hlen
      exact ⟨.dpk w1 (secField w0) (cycleField w0) w2 w3, congrArg (· :: [w1, w2, w3]) (eq_header_dpk hop hr w1 w2 w3)⟩
  · rintro ⟨i, rfl⟩
    cases i with
    | init chan => exact (wellFormed_cons_iff ..).2 (.inl ⟨rfl, rfl⟩)
    | dcs raw32 => exact (wellFormed_cons_iff ..).2 (.inr (.inl ⟨rfl, rfl⟩))
    | dpk q sec cycle cip0 cip1 =>
      exact (wellFormed_cons_iff ..).2 (.inr (.inr ⟨⟨opOf_header_dpk .., dpkReserved_header ..⟩, rfl⟩))

/-- Words that end inside the frame their header announces give no operation (93_implementation_defined.md U13). -/
theorem decode_of_short {w0 : Word} {ops : List Word} (hlen : ops.length + 1 < frameLength (opOf w0)) :
    decode (w0 :: ops) = .incomplete := by
  rcases decode_cases (w0 :: ops) with ⟨hnil, -⟩ | ⟨v0, w1, rest, hws, hop, -⟩ | ⟨v0, w1, rest, hws, hop, -⟩ |
    ⟨v0, w1, w2, w3, rest, hws, hop, -⟩ | ⟨v0, w1, rest, hws, hop, -⟩ | ⟨v0, w1, w2, w3, rest, hws, hop, -⟩ |
    ⟨v0, rest, hws, ⟨h1, h2, h3⟩, -⟩ | ⟨v0, rest, hws, -, e⟩
  · cases hnil
  all_goals obtain ⟨rfl, rfl⟩ := List.cons.inj hws
  · simp [hop] at hlen
  · simp [hop] at hlen
  · simp [hop] at hlen; omega
  · rcases hop with hop | hop <;> simp [hop] at hlen
  · simp [hop] at hlen; omega
  · simp [frameLength_other h1 h2 h3] at hlen
  · exact e

theorem decode_of_shortReserved {w0 : Word} (hop : opOf w0 = opInit ∨ opOf w0 = opDcs) (hr : shortReserved w0 ≠ 0#28)
    (w1 : Word) (rest : List Word) : decode (w0 :: w1 :: rest) = .illegal (opOf w0) .reservedBit rest := by
  rcases hop with hop | hop
  · rw [decode_of_opInit hop, if_neg hr, hop]
  · rw [decode_of_opDcs hop, if_neg hr, hop]

theorem decode_of_dpkReserved {w0 : Word} (hop : opOf w0 = opDpk) (hr : dpkReserved w0 ≠ 0#4) (w1 w2 w3 : Word)
    (rest : List Word) : decode (w0 :: w1 :: w2 :: w3 :: rest) = .illegal opDpk .reservedBit rest := by
  rw [decode_of_opDpk hop, if_neg hr]

/-- Settles O5. -/
theorem frameLengthFollowsHeader : Obligations.FrameLengthFollowsHeader := by
  refine ⟨⟨frameLength_init, frameLength_dcs, frameLength_dpk, fun op => frameLength_other⟩, fun w0 ops => ?_⟩
  split
  next hshort => exact decode_of_short hshort
  next hwhole =>
    rcases decode_whole (Nat.le_of_not_lt hwhole) with ⟨i, -, e⟩ | hillegal
    · exact .inl ⟨i, e⟩
    · exact .inr hillegal

end Sys2Proof

namespace Sys2Proof.Machine

/-- Settles O6. -/
theorem unknownOperationIsAnswered : Obligations.UnknownOperationIsAnswered := by
  refine ⟨fun s w0 ops hport h1 h2 h3 => ?_, by decide⟩
  have hd : decode s.cmdPort = .illegal (opOf w0) .unknownOp ops := hport ▸ decode_of_unknownOp ⟨h1, h2, h3⟩ ops
  exact step_of_illegal hd

/-- Settles O7: the decoder's answer to a reserved bit, then its equations on a legal header. -/
theorem reservedBitIsAnswered : Obligations.ReservedBitIsAnswered := by
  refine ⟨fun s w0 w1 rest hport hop hr => ?_, fun s w0 w1 w2 w3 rest hport hop hr => ?_, fun w1 rest => ?_,
    fun w0 w1 w2 w3 rest htop => ?_⟩
  · have hd : decode s.cmdPort = .illegal (opOf w0) .reservedBit rest := hport ▸ decode_of_shortReserved hop hr w1 rest
    exact step_of_illegal hd
  · have hd : decode s.cmdPort = .illegal opDpk .reservedBit rest := hport ▸ decode_of_dpkReserved hop hr w1 w2 w3 rest
    exact step_of_illegal hd
  · exact ⟨decode_encode_append (.init w1) rest, decode_encode_append (.dcs w1) rest⟩
  · obtain ⟨hop, hr⟩ := dpkFields_of_topByte htop
    exact (decode_of_opDpk hop w1 w2 w3 rest).trans (if_pos hr)

end Sys2Proof.Machine
end

section
/-! SUPPORT. The words of a response, field by field (30_encoding.md R78 to R82). -/

namespace Sys2Proof.Machine

/-! The header; `opOf_responseHeader` is its first field (R78). -/

section
variable (op code : BitVec 4) (info : BitVec 8) (tsv : BitVec 1)

@[simp] theorem responseHeader_code : (responseHeader op code info tsv).extractLsb' 24 4 = code :=
  calc (op ++ code ++ info ++ 0#15 ++ tsv).extractLsb' 24 4
      = (op ++ code ++ info ++ 0#15).extractLsb' 23 4 := BitVec.extractLsb'_append_eq_of_le (by decide)
    _ = (op ++ code ++ info).extractLsb' 8 4 := BitVec.extractLsb'_append_eq_of_le (by decide)
    _ = (op ++ code).extractLsb' 0 4 := BitVec.extractLsb'_append_eq_of_le (by decide)
    _ = code := BitVec.extractLsb'_append_eq_right

@[simp] theorem responseHeader_info : (responseHeader op code info tsv).extractLsb' 16 8 = info :=
  calc (op ++ code ++ info ++ 0#15 ++ tsv).extractLsb' 16 8
      = (op ++ code ++ info ++ 0#15).extractLsb' 15 8 := BitVec.extractLsb'_append_eq_of_le (by decide)
    _ = (op ++ code ++ info).extractLsb' 0 8 := BitVec.extractLsb'_append_eq_of_le (by decide)
    _ = info := BitVec.extractLsb'_append_eq_right

@[simp] theorem responseHeader_zeros : (responseHeader op code info tsv).extractLsb' 1 15 = 0#15 :=
  calc (op ++ code ++ info ++ 0#15 ++ tsv).extractLsb' 1 15
      = (op ++ code ++ info ++ 0#15).extractLsb' 0 15 := BitVec.extractLsb'_append_eq_of_le (by decide)
    _ = 0#15 := BitVec.extractLsb'_append_eq_right

@[simp] theorem responseHeader_tsv : (responseHeader op code info tsv)[0] = tsv[0] :=
  (BitVec.getElem_append (x := op ++ code ++ info ++ 0#15) (y := tsv) (by decide)).trans (dif_pos (by decide))

/-- Everything below the information byte is zero where there is no timestamp. -/
theorem responseHeader_low : (responseHeader op code info 0#1).extractLsb' 0 16 = 0#16 :=
  calc (responseHeader op code info 0#1).extractLsb' 0 16
      = (op ++ code ++ info ++ (0#15 ++ 0#1)).extractLsb' 0 16 := by
        rw [responseHeader, BitVec.append_assoc, BitVec.cast_eq]
    _ = 0#15 ++ 0#1 := BitVec.extractLsb'_append_eq_right
    _ = 0#16 := by decide

end

theorem faultCode_ne_zero (f : ItdFault) : faultCode f ≠ 0#4 := by
  cases f <;> simp [faultCode]

/-- The second word of DCS's answer (R80). -/
def positionWord (second : BitVec 7) (cycle : BitVec 13) : Word := (second.setWidth 32 <<< 16) ||| cycle.setWidth 32

section
variable (second : BitVec 7) (cycle : BitVec 13)

theorem position_frame :
    (Response.position second cycle).frame = [responseHeader opDcs 0#4 0#8 0#1, positionWord second cycle] := rfl

/-- The fields do not overlap: the word is their sum. -/
theorem positionWord_toNat : (positionWord second cycle).toNat = second.toNat * 2 ^ 16 + cycle.toNat := by
  have hsecond := second.isLt
  have hcycle := cycle.isLt
  have hshift : second.toNat <<< 16 < 2 ^ 32 := by rw [Nat.shiftLeft_eq]; omega
  rw [positionWord, BitVec.toNat_or, BitVec.toNat_shiftLeft, BitVec.toNat_setWidth_of_le (by decide),
    BitVec.toNat_setWidth_of_le (by decide), Nat.mod_eq_of_lt hshift, ← Nat.shiftLeft_add_eq_or_of_lt (by omega),
    Nat.shiftLeft_eq]

theorem positionWord_field (start len : Nat) :
    ((positionWord second cycle).extractLsb' start len).toNat = (second.toNat * 2 ^ 16 + cycle.toNat) / 2 ^ start % 2 ^ len := by
  rw [BitVec.extractLsb'_toNat, positionWord_toNat, Nat.shiftRight_eq_div_pow]

theorem positionWord_second : (positionWord second cycle).extractLsb' 16 7 = second := by
  have hsecond := second.isLt
  have hcycle := cycle.isLt
  refine BitVec.eq_of_toNat_eq ?_
  rw [positionWord_field]
  omega

theorem positionWord_cycle : (positionWord second cycle).extractLsb' 0 13 = cycle := by
  have hcycle := cycle.isLt
  refine BitVec.eq_of_toNat_eq ?_
  rw [positionWord_field]
  omega

/-- The bits between the two fields and above them are zero. -/
theorem positionWord_zeros :
    (positionWord second cycle).extractLsb' 13 3 = 0#3 ∧ (positionWord second cycle).extractLsb' 23 9 = 0#9 := by
  have hsecond := second.isLt
  have hcycle := cycle.isLt
  constructor <;> refine BitVec.eq_of_toNat_eq ?_ <;> rw [positionWord_field, BitVec.toNat_zero] <;> omega

end

/-- Settles O55. -/
theorem responseHeaderLayout : Obligations.ResponseHeaderLayout := by
  intro r
  cases r with
  | ok => exact ⟨_, _, rfl, responseHeader_zeros .., by simp, by simp, by simp, rfl⟩
  | position second cycle => exact ⟨_, _, rfl, responseHeader_zeros .., by simp, by simp, by simp, rfl⟩
  | record rec =>
    refine ⟨_, _, rfl, responseHeader_zeros .., ?_, by simp, by simp, Nat.succ.inj (recordFrame_length rec)⟩
    cases hts : rec.ts <;> simp [hts]
  | fault op f =>
    have hcode := faultCode_ne_zero f
    exact ⟨_, _, rfl, responseHeader_zeros .., by simp, by simp [hcode], by simp [hcode], rfl⟩

/-- Settles O56. -/
theorem faultResponseIsOneWord : Obligations.FaultResponseIsOneWord := by
  intro op f
  refine ⟨_, rfl, opOf_responseHeader .., responseHeader_low .., ?_⟩
  rw [responseHeader_code, responseHeader_info]
  cases f <;> rfl

/-! The fields of a cycle-start word (R83). -/

theorem cycleStartSecond_toNat (raw32 : Word) : (cycleStartSecond raw32).toNat = raw32.toNat / 2 ^ 25 := by
  have := raw32.isLt
  rw [cycleStartSecond, BitVec.extractLsb'_toNat, Nat.shiftRight_eq_div_pow]
  omega

theorem cycleStartCycle_toNat (raw32 : Word) : (cycleStartCycle raw32).toNat = raw32.toNat / 2 ^ 12 % 2 ^ 13 := by
  rw [cycleStartCycle, BitVec.extractLsb'_toNat, Nat.shiftRight_eq_div_pow]

/-- Settles O20. -/
theorem dcsAnswersBothFields : Obligations.DcsAnswersBothFields := by
  intro raw32 s
  have hheader : responseHeader opDcs 0#4 0#8 0#1 = 0x20000000#32 := by decide
  refine ⟨cycleStartSecond raw32, cycleStartCycle raw32, _, rfl, cycleStartSecond_toNat raw32, cycleStartCycle_toNat raw32, ?_,
    positionWord_second _ _, positionWord_cycle _ _, positionWord_zeros _ _⟩
  rw [position_frame, hheader]

/-- Settles O8: widening the two fields loses nothing, so narrowing them again gives DCS's answer. -/
theorem pseudoInstructionTakesBothFields : Obligations.PseudoInstructionTakesBothFields := by
  intro q raw32 cip0 cip1
  refine ⟨_, _, rfl, ?_, ?_, fun s => ?_⟩
  · rw [BitVec.toNat_setWidth_of_le (by decide), cycleStartSecond_toNat]
  · rw [BitVec.toNat_setWidth_of_le (by decide), cycleStartCycle_toNat]
  · rw [BitVec.setWidth_setWidth_of_le _ (by decide), BitVec.setWidth_setWidth_of_le _ (by decide), BitVec.setWidth_eq,
      BitVec.setWidth_eq]
    rfl

end Sys2Proof.Machine
end

section
/-! SUPPORT. The host reads every response back from its frame: no field a step can produce overflows its word
(30_encoding.md R81 and the ranges under it). -/

namespace Sys2Proof.Machine

/-! The ranges of the fields. -/

/-- The timestamp side fits the words `Q1` to `Q7` of an ITD whose sub-tick is `1/den` (R81). -/
structure TimestampSide.Fits (den : Nat) (t : TimestampSide) : Prop where
  tSec : t.tSec < 2 ^ 3
  tCycle : t.tCycle < 2 ^ 13
  tOffset : t.tOffset < 2 ^ 12
  tstamp : t.tstamp < 2 ^ 32
  elapse : -2 ^ 31 ≤ t.elapse ∧ t.elapse < 2 ^ 31
  delay : -2 ^ 31 ≤ t.delay ∧ t.delay < 2 ^ 31
  delayGap : -2 ^ 31 ≤ t.delayGap ∧ t.delayGap < 2 ^ 31
  drift : -2 ^ 63 ≤ t.accumDiff.num ∧ t.accumDiff.num < 2 ^ 63
  driftDen : t.accumDiff.den = den

/-- The record fits the words `Q1` to `Q10` (R81). -/
structure Record.Fits (den : Nat) (r : Record) : Prop where
  ts : ∀ t, r.ts = some t → t.Fits den
  dbsPerPayload : r.dbsPerPayload < 2 ^ 32
  dbCount : r.dbCount < 2 ^ 64

/-- Only a record has fields wider than the words of its frame. -/
def Response.Fits (den : Nat) (r : Response) : Prop := ∀ rec, r = .record rec → rec.Fits den

/-! What fits is read back. -/

theorem highWord_append_lowWord (v : BitVec 64) : highWord v ++ lowWord v = v :=
  BitVec.extractLsb'_append_extractLsb' (w := 32)

section
variable (tSec tCycle tOffset : Nat)

theorem clockWord_tSec : (clockWord tSec tCycle tOffset).extractLsb' 25 3 = BitVec.ofNat 3 tSec :=
  calc (0#4 ++ BitVec.ofNat 3 tSec ++ BitVec.ofNat 13 tCycle ++ BitVec.ofNat 12 tOffset).extractLsb' 25 3
      = (0#4 ++ BitVec.ofNat 3 tSec ++ BitVec.ofNat 13 tCycle).extractLsb' 13 3 :=
        BitVec.extractLsb'_append_eq_of_le (by decide)
    _ = (0#4 ++ BitVec.ofNat 3 tSec).extractLsb' 0 3 := BitVec.extractLsb'_append_eq_of_le (by decide)
    _ = BitVec.ofNat 3 tSec := BitVec.extractLsb'_append_eq_right

theorem clockWord_tCycle : (clockWord tSec tCycle tOffset).extractLsb' 12 13 = BitVec.ofNat 13 tCycle :=
  calc (0#4 ++ BitVec.ofNat 3 tSec ++ BitVec.ofNat 13 tCycle ++ BitVec.ofNat 12 tOffset).extractLsb' 12 13
      = (0#4 ++ BitVec.ofNat 3 tSec ++ BitVec.ofNat 13 tCycle).extractLsb' 0 13 :=
        BitVec.extractLsb'_append_eq_of_le (by decide)
    _ = BitVec.ofNat 13 tCycle := BitVec.extractLsb'_append_eq_right

theorem clockWord_tOffset : (clockWord tSec tCycle tOffset).extractLsb' 0 12 = BitVec.ofNat 12 tOffset :=
  BitVec.extractLsb'_append_eq_right

end

theorem toNat_ofNat_of_lt {w n : Nat} (h : n < 2 ^ w) : (BitVec.ofNat w n).toNat = n := by
  rw [BitVec.toNat_ofNat, Nat.mod_eq_of_lt h]

/-- The eight fields of a timestamp side that fits come back from its seven words. -/
theorem readTimestamp_eq {den : Nat} {t : TimestampSide} (h : t.Fits den) :
    readTimestamp den (clockWord t.tSec t.tCycle t.tOffset) (BitVec.ofNat 32 t.tstamp) (BitVec.ofInt 32 t.elapse)
      (BitVec.ofInt 32 t.delay) (BitVec.ofInt 32 t.delayGap) (highWord (BitVec.ofInt 64 t.accumDiff.num))
      (lowWord (BitVec.ofInt 64 t.accumDiff.num)) = t := by
  obtain ⟨tSec, tCycle, tOffset, tstamp, elapse, delay, delayGap, num, den'⟩ := t
  obtain ⟨hsec, hcycle, hoffset, htstamp, ⟨he, he'⟩, ⟨hd, hd'⟩, ⟨hg, hg'⟩, ⟨hn, hn'⟩, rfl⟩ := h
  simp only [readTimestamp, clockWord_tSec, clockWord_tCycle, clockWord_tOffset, highWord_append_lowWord,
    toNat_ofNat_of_lt hsec, toNat_ofNat_of_lt hcycle, toNat_ofNat_of_lt hoffset, toNat_ofNat_of_lt htstamp,
    BitVec.toInt_ofInt_eq_self (by decide : 0 < 32) he he', BitVec.toInt_ofInt_eq_self (by decide : 0 < 32) hd hd',
    BitVec.toInt_ofInt_eq_self (by decide : 0 < 32) hg hg', BitVec.toInt_ofInt_eq_self (by decide : 0 < 64) hn hn']

theorem readResponse_recordFrame {den : Nat} {r : Record} (h : r.Fits den) :
    readResponse den (recordFrame r) = some (.record r) := by
  obtain ⟨ts, dbs, count⟩ := r
  obtain ⟨hts, hdbs, hcount⟩ := h
  have hdbs' := toNat_ofNat_of_lt hdbs
  have hcount' := toNat_ofNat_of_lt hcount
  cases ts with
  | none => simp [recordFrame, timestampWords, readResponse, highWord_append_lowWord, hdbs', hcount']
  | some t =>
    simp [recordFrame, timestampWords, readResponse, highWord_append_lowWord, hdbs', hcount', readTimestamp_eq (hts t rfl)]

theorem readResponse_frame {den : Nat} {r : Response} (h : r.Fits den) : readResponse den r.frame = some r := by
  cases r with
  | ok => simp [Response.frame, readResponse, opOf_responseHeader]
  | position second cycle => simp [position_frame, readResponse, positionWord_second, positionWord_cycle]
  | record rec => exact readResponse_recordFrame (h rec rfl)
  | fault op f =>
    simp [Response.frame, readResponse, faultCode_ne_zero, opOf_responseHeader, faultOfCode_faultCode]

/-! What a packet answers fits. -/

theorem accumulateBlocks_perPayload (cycle : BitVec 16) (dbs : Nat) (s : State) :
    (accumulateBlocks cycle dbs s).perPayload = dbs := by
  cases h : s.resetCycle with
  | none => rw [accumulateBlocks_first h]
  | some rc => rw [accumulateBlocks_later h]

section
variable {p : Packet} {s : State}

theorem elapseOf_range {tstamp : Nat} (hi : Inv itdConfig s) (ht : tstamp ≤ maxTstamp) :
    -2 ^ 31 ≤ elapseOf tstamp s ∧ elapseOf tstamp s < 2 ^ 31 := by
  cases hlast : s.lastTstamp with
  | none => simp [elapseOf, hlast]
  | some last =>
    have hl := hi.range.tstamp last hlast
    rw [maxTstamp_eq] at hl ht
    rw [elapseOf_later hlast]
    rcases fwd_cases last tstamp with ⟨-, e⟩ | ⟨-, e⟩ <;> rw [e] <;> omega

theorem delayGapOf_range {delay : Int} (hi : Inv itdConfig s) (hd : minDelay ≤ delay ∧ delay ≤ maxTstamp) :
    -2 ^ 31 ≤ delayGapOf delay s ∧ delayGapOf delay s < 2 ^ 31 := by
  cases hlast : s.lastDelay with
  | none => simp [delayGapOf, hlast]
  | some last =>
    have hl := hi.range.delay last hlast
    rw [minDelay_eq, maxTstamp_eq] at hl hd
    rw [delayGapOf_later hlast]
    rcases gap3072_cases last delay with ⟨-, e⟩ | ⟨-, e⟩ <;> rw [e] <;> omega

/-- The prediction is in the tick domain and the timestamp at most 1023 above it, both in sub-ticks. -/
theorem driftOf_range {tstamp : Nat} (ht : tstamp ≤ maxTstamp) (r : RateRow) (s : State) :
    -2 ^ 63 ≤ driftOf itdConfig r tstamp s ∧ driftOf itdConfig r tstamp s < 2 ^ 63 := by
  cases hlast : s.lastAccum with
  | none => simp [driftOf, hlast]
  | some last =>
    have ha := advance_lt itdConfig_wellFormed last r
    have e : driftOf itdConfig r tstamp s = cdiff itdConfig (advance itdConfig last r) (toSubticks itdConfig tstamp) := by
      simp [driftOf, hlast]
    rw [maxTstamp_eq] at ht
    rw [subtickDen_itdConfig] at ha
    rw [e, toSubticks, subtickDen_itdConfig]
    rcases cdiff_cases itdConfig (advance itdConfig last r) ((tstamp * 147 : Nat) : Int) with ⟨-, e⟩ | ⟨-, e⟩ <;> rw [e]
    · omega
    · rw [subtickDomain_eq, subtickDen_itdConfig]
      omega

/-- The ranges that the invariant and the operands give the timestamp side (R28, R81). -/
theorem timestampSide_fits (hi : Inv itdConfig s) (p : Packet) (r : RateRow) : (timestampSide itdConfig p r s).Fits 147 :=
  have ht := tstampOf_le_max itdConfig p
  have hd := delayOf_range p ht
  { tSec := carry_fst_lt _ _
    tCycle := (carry_snd_lt _ _).trans (by decide)
    tOffset := p.tOffset_lt
    tstamp := lt_of_le_of_lt ht (by decide)
    elapse := elapseOf_range hi ht
    delay := ⟨le_trans (by decide) hd.1, lt_of_le_of_lt hd.2 (by decide)⟩
    delayGap := delayGapOf_range hi hd
    drift := driftOf_range ht r s
    driftDen := subtickDen_itdConfig }

/-- A packet answered with a record has been counted, and carries no timestamp side or its own (R146, R161). -/
theorem runPacket_record_cases {c : Config} {rec : Record} (h : (runPacket c p s).rspPort = s.rspPort ++ [.record rec]) :
    ∃ b, countBlocks c p s = .ok b ∧ rec.dbsPerPayload = b.perPayload ∧ rec.dbCount = b.report ∧
      (rec.ts = none ∨ ∃ r, rec.ts = some (timestampSide c p r s)) := by
  rcases runPacket_cases c p s with ⟨f, e⟩ | ⟨b, hb, -, e⟩ | ⟨b, r, hb, -, -, e⟩
  · simp [e] at h
  · rw [e, commitUntimed, State.respond_rspPort, State.commitBlocks_rspPort, List.append_cancel_left_eq] at h
    cases h
    exact ⟨b, hb, rfl, rfl, .inl rfl⟩
  · rw [e, commitTimed_rspPort, List.append_cancel_left_eq] at h
    cases h
    exact ⟨b, hb, rfl, rfl, .inr ⟨r, rfl⟩⟩

/-- The quotient of step 1 is at most the payload's size, and the reported count has passed the overflow test (R142, R145). -/
theorem countBlocks_fits {b : BlockCount} (hb : countBlocks itdConfig p s = .ok b) :
    b.perPayload < 2 ^ 32 ∧ b.report < 2 ^ 64 := by
  obtain ⟨-, -, hreport, e⟩ := countBlocks_ok hb
  refine ⟨?_, hreport⟩
  have hper : b.perPayload = (p.quadsPerPayload.toNat - 2) / p.quadsPerDb.toNat := by
    rw [e, accumulateBlocks_perPayload]
  rw [hper]
  exact (Nat.div_le_self _ _).trans_lt ((Nat.sub_le _ _).trans_lt p.quadsPerPayload.isLt)

theorem runPacket_record_fits (hi : Inv itdConfig s) {rec : Record}
    (h : (runPacket itdConfig p s).rspPort = s.rspPort ++ [.record rec]) : rec.Fits 147 := by
  obtain ⟨b, hb, hdbs, hcount, hts⟩ := runPacket_record_cases h
  obtain ⟨hb1, hb2⟩ := countBlocks_fits hb
  refine ⟨fun t ht => ?_, hdbs ▸ hb1, hcount ▸ hb2⟩
  rcases hts with hnone | ⟨r, hsome⟩
  · exact absurd (hnone.symm.trans ht) nofun
  · exact Option.some.inj (hsome.symm.trans ht) ▸ timestampSide_fits hi p r

end

/-- The response of any step from a state with the invariants fits its frame: only a packet answers with a record. -/
theorem step_response_fits {s t : State} {r : Response} (hi : Inv itdConfig s) (h : step s = .next t)
    (hrsp : t.rspPort = s.rspPort ++ [r]) : r.Fits 147 := by
  rintro rec rfl
  rcases step_cases h with ⟨i, rest, -, hexec⟩ | ⟨op, why, rest, -, rfl⟩
  · cases i with
    | init chan =>
      obtain rfl := Host.Outcome.next.inj hexec
      simp at hrsp
    | dcs raw32 =>
      obtain rfl := Host.Outcome.next.inj hexec
      simp at hrsp
    | dpk q sec cycle cip0 cip1 =>
      obtain rfl := Host.Outcome.next.inj hexec
      exact runPacket_record_fits (hi.of_sameRegisters (sameRegisters_takeFrame rest s)) hrsp
  · simp [answerIllegal] at hrsp

/-- Settles O54: the response of a step fits its frame, and what fits is read back. -/
theorem responseFramesLoseNothing : Obligations.ResponseFramesLoseNothing :=
  fun _ _ _ hi h hrsp => readResponse_frame (step_response_fits hi h hrsp)

end Sys2Proof.Machine
end

section
/-! SUPPORT. The operand fields DPK reads, and that it reads nothing else (30_encoding.md R84, R85, R87). -/

namespace Sys2Proof.Machine

/-- Two packets agree on every field the rules read; `sec` is read modulo 8 alone. -/
structure Packet.SameFields (p p' : Packet) : Prop where
  quadsPerPayload : p'.quadsPerPayload = p.quadsPerPayload
  sec : p'.sec.toNat % 8 = p.sec.toNat % 8
  cycle : p'.cycle = p.cycle
  quadsPerDb : p'.quadsPerDb = p.quadsPerDb
  syt : p'.syt = p.syt
  sfc : p'.sfc = p.sfc

/-- The carry goes into the second modulo 8 in either case (40_clock_arith.md R102). -/
theorem carry_congr_mod {sec sec' : Nat} (h : sec' % 8 = sec % 8) (cycle : Nat) : carry sec' cycle = carry sec cycle := by
  have hnext : (sec' + 1) % 8 = (sec + 1) % 8 := Nat.ModEq.add_right 1 h
  simp only [carry, secMax_eq, h, hnext]

/-- `syt` and `sfc` are fields of `cip1[23:0]` (R85). -/
theorem Packet.syt_sfc_of_low24 (p : Packet) :
    p.syt = (p.cip1.extractLsb' 0 24).extractLsb' 0 16 ∧ p.sfc = (p.cip1.extractLsb' 0 24).extractLsb' 16 8 := by
  have happend : p.sfc ++ p.syt = p.cip1.extractLsb' 0 24 :=
    BitVec.extractLsb'_append_extractLsb'_eq_extractLsb' (start₂ := 16) (len₂ := 8) (x := p.cip1) rfl
  rw [← happend]
  exact ⟨BitVec.extractLsb'_append_eq_right.symm, BitVec.extractLsb'_append_eq_left.symm⟩

section
variable {p p' : Packet}

theorem Packet.SameFields.tOffset_eq (h : p.SameFields p') : p'.tOffset = p.tOffset := by
  rw [Packet.tOffset, Packet.tOffset, h.syt]

theorem Packet.SameFields.sytCycle_eq (h : p.SameFields p') : p'.sytCycle = p.sytCycle := by
  rw [Packet.sytCycle, Packet.sytCycle, h.syt]

theorem Packet.SameFields.countBlocks_eq (h : p.SameFields p') (c : Config) (s : State) :
    countBlocks c p' s = countBlocks c p s := by
  simp only [countBlocks, blocksPerPayload, h.quadsPerPayload, h.quadsPerDb, h.cycle]

theorem Packet.SameFields.reconstructCycle_eq (h : p.SameFields p') (c : Config) :
    reconstructCycle c p' = reconstructCycle c p := by
  rw [reconstructCycle, reconstructCycle, h.cycle, h.sytCycle_eq, carry_congr_mod h.sec]

theorem Packet.SameFields.tstampOf_eq (h : p.SameFields p') (c : Config) : tstampOf c p' = tstampOf c p := by
  rw [tstampOf, tstampOf, h.reconstructCycle_eq, h.tOffset_eq]

theorem Packet.SameFields.delayOf_eq (h : p.SameFields p') (tstamp : Nat) : delayOf p' tstamp = delayOf p tstamp := by
  rw [delayOf, delayOf, startOf_eq, startOf_eq, h.sec, h.cycle]

theorem Packet.SameFields.timestampSide_eq (h : p.SameFields p') (c : Config) (r : RateRow) (s : State) :
    timestampSide c p' r s = timestampSide c p r s := by
  simp only [timestampSide, h.reconstructCycle_eq, h.tOffset_eq, h.tstampOf_eq, h.delayOf_eq]

theorem Packet.SameFields.commitTimed_eq (h : p.SameFields p') (c : Config) (r : RateRow) (b : BlockCount) (s : State) :
    commitTimed c p' r b s = commitTimed c p r b s := by
  simp only [commitTimed, h.timestampSide_eq, h.tstampOf_eq, h.delayOf_eq]

/-- Packets that agree on the fields are one operation: each part of DPK is the same for both. -/
theorem Packet.SameFields.runPacket_eq (h : p.SameFields p') (c : Config) (s : State) : runPacket c p' s = runPacket c p s := by
  simp only [runPacket, h.countBlocks_eq, h.syt, h.sfc, h.commitTimed_eq]

end

/-- Settles O31. -/
theorem unreadOperandBitsAreIgnored : Obligations.UnreadOperandBitsAreIgnored := by
  intro p p' s hq hsec hcycle hdb hlow
  obtain ⟨hsyt, hsfc⟩ := p.syt_sfc_of_low24
  obtain ⟨hsyt', hsfc'⟩ := p'.syt_sfc_of_low24
  have hsame : p.SameFields p' :=
    { quadsPerPayload := hq.symm
      sec := hsec.symm
      cycle := hcycle.symm
      quadsPerDb := hdb.symm
      syt := by rw [hsyt, hsyt', hlow]
      sfc := by rw [hsfc, hsfc', hlow] }
  exact congrArg Host.Outcome.next (hsame.runPacket_eq itdConfig s).symm

end Sys2Proof.Machine
end

section
/-! SUPPORT. The assembler reads back what it prints (30_encoding.md R88): a literal is its digits, and the commas and spaces of
a line are the ones between its operands. -/

namespace Sys2Proof.Machine

/-! Decimal literals. -/

theorem decimalDigit_of_isDigit {ch : Char} (h : ch.isDigit = true) : decimalDigit ch = some (ch.toNat - '0'.toNat) := by
  have hrange : '0' ≤ ch ∧ ch ≤ '9' := by
    rwa [Char.isDigit, Bool.and_eq_true, decide_eq_true_iff, decide_eq_true_iff] at h
  exact if_pos hrange

theorem readDigits_decimal {cs : List Char} (h : ∀ ch ∈ cs, ch.isDigit = true) (acc : Nat) :
    readDigits 10 decimalDigit acc cs = some (Nat.ofDigitChars 10 cs acc) := by
  induction cs generalizing acc with
  | nil => rfl
  | cons ch cs ih =>
    obtain ⟨hch, hcs⟩ := List.forall_mem_cons.1 h
    rw [readDigits, decimalDigit_of_isDigit hch, Nat.ofDigitChars_cons, Nat.mul_comm 10 acc]
    exact ih hcs _

/-- Digits are read as a decimal literal: the second one is no `x`. -/
theorem readLiteral_of_digits {cs : List Char} (hne : cs ≠ []) (h : ∀ ch ∈ cs, ch.isDigit = true) :
    readLiteral cs = readDigits 10 decimalDigit 0 cs := by
  unfold readLiteral
  split
  · exact absurd rfl hne
  · exact absurd (h 'x' (by simp)) (by decide)
  · exact absurd (h 'x' (by simp)) (by decide)
  · rfl

section
variable {w : Nat} (v : BitVec w)

theorem literalText_ne_nil : literalText v ≠ [] := Nat.toDigits_ne_nil

theorem isDigit_of_mem_literalText : ∀ ch ∈ literalText v, ch.isDigit = true :=
  fun _ h => Nat.isDigit_of_mem_toDigits (by decide) (by decide) h

/-- An operand is read back from its own literal. -/
theorem readOperand_literalText : readOperand w (literalText v) = some v := by
  have hread : readLiteral (literalText v) = some v.toNat :=
    calc readLiteral (literalText v)
        = readDigits 10 decimalDigit 0 (literalText v) :=
          readLiteral_of_digits (literalText_ne_nil v) (isDigit_of_mem_literalText v)
      _ = some (Nat.ofDigitChars 10 (literalText v) 0) := readDigits_decimal (isDigit_of_mem_literalText v) 0
      _ = some v.toNat := congrArg some Nat.ofDigitChars_ten_toDigits
  simp [readOperand, hread, v.isLt]

end

/-! Words of a line, and the spaces around them. -/

/-- A mnemonic or a literal: at least one character, none of them a space or a comma. -/
structure IsToken (cs : List Char) : Prop where
  ne_nil : cs ≠ []
  no_space : ∀ ch ∈ cs, ch ≠ ' '
  no_comma : ∀ ch ∈ cs, ch ≠ ','

theorem isToken_literalText {w : Nat} (v : BitVec w) : IsToken (literalText v) where
  ne_nil := literalText_ne_nil v
  no_space := by
    rintro ch hch rfl
    exact absurd (isDigit_of_mem_literalText v ' ' hch) (by decide)
  no_comma := by
    rintro ch hch rfl
    exact absurd (isDigit_of_mem_literalText v ',' hch) (by decide)

theorem trimSpaces_eq_self {cs : List Char} (hhead : ∀ ch ∈ cs.head?, ch ≠ ' ') (hlast : ∀ ch ∈ cs.getLast?, ch ≠ ' ') :
    trimSpaces cs = cs := by
  have hfront : cs.dropWhile (· == ' ') = cs := by
    cases cs with
    | nil => rfl
    | cons ch cs => exact List.dropWhile_cons_of_neg (by simpa using hhead ch rfl)
  have hback : cs.reverse.dropWhile (· == ' ') = cs.reverse := by
    cases e : cs.reverse with
    | nil => rfl
    | cons ch rest =>
      have hch : cs.getLast? = some ch := by rw [← List.head?_reverse, e]; rfl
      exact List.dropWhile_cons_of_neg (by simpa using hlast ch hch)
  rw [trimSpaces, hfront, hback, List.reverse_reverse]

theorem trimSpaces_space_cons (cs : List Char) : trimSpaces (' ' :: cs) = trimSpaces cs := rfl

theorem IsToken.trimSpaces_eq {cs : List Char} (h : IsToken cs) : trimSpaces cs = cs :=
  trimSpaces_eq_self (fun ch hch => h.no_space ch (List.mem_of_mem_head? hch))
    fun ch hch => h.no_space ch (List.mem_of_mem_getLast? hch)

/-! Cutting at commas. -/

theorem splitCommas_ne_nil (cs : List Char) : splitCommas cs ≠ [] := by
  cases cs with
  | nil => simp [splitCommas]
  | cons ch cs =>
    cases h : splitCommas cs with
    | nil => simp [splitCommas, h]
    | cons part parts => by_cases hch : ch = ',' <;> simp [splitCommas, h, hch]

theorem splitCommas_comma_cons (cs : List Char) : splitCommas (',' :: cs) = [] :: splitCommas cs := by
  cases h : splitCommas cs with
  | nil => exact absurd h (splitCommas_ne_nil cs)
  | cons part parts => simp [splitCommas, h]

theorem splitCommas_cons_of_ne {ch : Char} (hch : ch ≠ ',') {cs part : List Char} {parts : List (List Char)}
    (h : splitCommas cs = part :: parts) : splitCommas (ch :: cs) = (ch :: part) :: parts := by
  simp [splitCommas, h, hch]

theorem splitCommas_of_no_comma {cs : List Char} (h : ∀ ch ∈ cs, ch ≠ ',') : splitCommas cs = [cs] := by
  induction cs with
  | nil => rfl
  | cons ch cs ih =>
    obtain ⟨hch, hcs⟩ := List.forall_mem_cons.1 h
    exact splitCommas_cons_of_ne hch (ih hcs)

theorem splitCommas_append_comma {cs : List Char} (h : ∀ ch ∈ cs, ch ≠ ',') (rest : List Char) :
    splitCommas (cs ++ ',' :: rest) = cs :: splitCommas rest := by
  induction cs with
  | nil => exact splitCommas_comma_cons rest
  | cons ch cs ih =>
    obtain ⟨hch, hcs⟩ := List.forall_mem_cons.1 h
    exact splitCommas_cons_of_ne hch (ih hcs)

/-! A whole line. -/

/-- Operands as a line prints them: a comma and a space between two of them (R88). -/
def operandText (operands : List (List Char)) : List Char := [',', ' '].intercalate operands

theorem operandText_singleton (a : List Char) : operandText [a] = a := List.intercalate_singleton

theorem operandText_cons_cons (a b : List Char) (rest : List (List Char)) :
    operandText (a :: b :: rest) = a ++ ',' :: ' ' :: operandText (b :: rest) := by
  simp [operandText, List.intercalate_cons_cons]

section
variable {a : List Char} {operands : List (List Char)}

/-- The operand text of a line, cut at its commas and trimmed, is its operands. -/
theorem splitCommas_operandText (h : ∀ t ∈ a :: operands, IsToken t) :
    (splitCommas (' ' :: operandText (a :: operands))).map trimSpaces = a :: operands := by
  induction operands generalizing a with
  | nil =>
    have ha := h a List.mem_cons_self
    rw [operandText_singleton, splitCommas_of_no_comma (List.forall_mem_cons.2 ⟨by decide, ha.no_comma⟩), List.map_singleton,
      trimSpaces_space_cons, ha.trimSpaces_eq]
  | cons b rest ih =>
    obtain ⟨ha, hrest⟩ := List.forall_mem_cons.1 h
    rw [operandText_cons_cons, ← List.cons_append,
      splitCommas_append_comma (List.forall_mem_cons.2 ⟨by decide, ha.no_comma⟩), List.map_cons, ih hrest,
      trimSpaces_space_cons, ha.trimSpaces_eq]

theorem getLast?_operandText (h : ∀ t ∈ a :: operands, IsToken t) :
    ∃ ch, (operandText (a :: operands)).getLast? = some ch ∧ ch ≠ ' ' := by
  induction operands generalizing a with
  | nil =>
    have ha := h a List.mem_cons_self
    rw [operandText_singleton, List.getLast?_eq_some_getLast ha.ne_nil]
    exact ⟨_, rfl, ha.no_space _ (List.getLast_mem _)⟩
  | cons b rest ih =>
    obtain ⟨ch, hch, hne⟩ := ih (List.forall_mem_cons.1 h).2
    refine ⟨ch, ?_, hne⟩
    rw [operandText_cons_cons]
    simp [List.getLast?_cons, hch]

/-- A printed line is taken apart into its mnemonic and its operands. -/
theorem assembleChars_line {mnemonic : List Char} (hm : IsToken mnemonic) (h : ∀ t ∈ a :: operands, IsToken t) :
    assembleChars (mnemonic ++ ' ' :: operandText (a :: operands)) = assembleOperands mnemonic (a :: operands) := by
  have htrim : trimSpaces (mnemonic ++ ' ' :: operandText (a :: operands)) = mnemonic ++ ' ' :: operandText (a :: operands) := by
    obtain ⟨last, hlast, hne⟩ := getLast?_operandText h
    refine trimSpaces_eq_self (fun ch hch => ?_) fun ch hch => ?_
    · rw [List.head?_append_of_ne_nil _ hm.ne_nil] at hch
      exact hm.no_space ch (List.mem_of_mem_head? hch)
    · have hend : (mnemonic ++ ' ' :: operandText (a :: operands)).getLast? = some last := by simp [List.getLast?_cons, hlast]
      exact Option.some.inj (hend.symm.trans hch) ▸ hne
  have hm' : ∀ ch ∈ mnemonic, (ch != ' ') = true := fun ch hch => bne_iff_ne.2 (hm.no_space ch hch)
  rw [assembleChars, htrim, List.takeWhile_append_of_pos hm', List.dropWhile_append_of_pos hm',
    List.takeWhile_cons_of_neg (by decide), List.dropWhile_cons_of_neg (by decide), splitCommas_operandText h, List.append_nil]

end

/-- Settles O9: the line is taken apart, then each operand is read back. -/
theorem assemblyLineRoundTrip : Obligations.AssemblyLineRoundTrip := by
  intro i
  cases i with
  | init chan =>
    have hmnemonic : IsToken ['I', 'N', 'I', 'T'] := ⟨nofun, by simp, by simp⟩
    have hline : assemblyChars (.init chan) = ['I', 'N', 'I', 'T'] ++ ' ' :: operandText [literalText chan] := by
      rw [operandText_singleton]; rfl
    rw [hline, assembleChars_line hmnemonic (by simp [isToken_literalText])]
    simp [assembleOperands, readOperand_literalText]
  | dcs raw32 =>
    have hmnemonic : IsToken ['D', 'C', 'S'] := ⟨nofun, by simp, by simp⟩
    have hline : assemblyChars (.dcs raw32) = ['D', 'C', 'S'] ++ ' ' :: operandText [literalText raw32] := by
      rw [operandText_singleton]; rfl
    rw [hline, assembleChars_line hmnemonic (by simp [isToken_literalText])]
    simp [assembleOperands, readOperand_literalText]
  | dpk q sec cycle cip0 cip1 =>
    have hmnemonic : IsToken ['D', 'P', 'K'] := ⟨nofun, by simp, by simp⟩
    have hline : assemblyChars (.dpk q sec cycle cip0 cip1) = ['D', 'P', 'K'] ++ ' ' ::
        operandText [literalText q, literalText sec, literalText cycle, literalText cip0, literalText cip1] := rfl
    rw [hline, assembleChars_line hmnemonic (by simp [isToken_literalText])]
    simp [assembleOperands, readOperand_literalText]

end Sys2Proof.Machine
end

section
/-! SUPPORT. The clock arithmetic as equations on numbers: the block of a spliced cycle, the tick domain's forward distance and
the offset domain's gap (40_clock_arith.md R101 to R107). -/

namespace Sys2Proof.Machine

/-! The splice (R103, R104). -/

/-- The mask of R103 keeps the number of the 16-cycle block, modulo 512. -/
theorem and_blockMask (x : Nat) : x &&& 0x1ff0 = 16 * (x / 16 % 512) := by
  have hhigh : (x &&& 0x1ff0) / 2 ^ 4 = x / 16 % 512 :=
    calc (x &&& 0x1ff0) / 2 ^ 4
        = x / 2 ^ 4 &&& 0x1ff0 / 2 ^ 4 := Nat.and_div_two_pow ..
      _ = x / 16 % 512 := Nat.and_two_pow_sub_one_eq_mod (x / 16) 9
  have hlow : (x &&& 0x1ff0) % 2 ^ 4 = 0 := by
    rw [Nat.and_mod_two_pow, show 0x1ff0 % 2 ^ 4 = 0 from rfl, Nat.and_zero]
  omega

/-- `splice` puts the `syt` cycle bits into the arrival block or the block the addend reaches (R103). -/
theorem splice_eq (c : Config) (cycle : Nat) {sytCycle : Nat} (h : sytCycle ≤ 15) :
    splice c cycle sytCycle =
      16 * ((if sytCycle < cycle % 16 then cycle + c.rollAdd else cycle) / 16 % 512) + sytCycle := by
  have hlow : cycle &&& 0xf = cycle % 16 := Nat.and_two_pow_sub_one_eq_mod cycle 4
  have hor (m : Nat) : 16 * m ||| sytCycle = 16 * m + sytCycle :=
    (Nat.two_pow_add_eq_or_of_lt (i := 4) (Nat.lt_succ_of_le h) m).symm
  rw [splice, hlow, and_blockMask, hor]

/-- Settles O33: which block the addend reaches from the low bits of the arrival cycle. -/
theorem spliceFindsTheCycle : Obligations.SpliceFindsTheCycle := by
  intro cycle sytCycle hsyt
  have haddend : itdConfig.rollAdd = 14 := rfl
  simp only [splice_eq _ _ hsyt, and_blockMask, haddend]
  refine ⟨fun hle => ?_, fun hlt h2 => ?_, fun hlt h1 => ⟨by omega, ?_, ?_⟩⟩
  · rw [if_neg (Nat.not_lt.2 hle)]; omega
  · rw [if_pos hlt]; omega
  · rw [if_pos hlt]; omega
  · rw [if_pos hlt]; omega

/-- Settles O32. -/
theorem tickIsRecovered : Obligations.TickIsRecovered := by
  refine ⟨tick_eq, fun s c o hs hc ho => ⟨tick_lt_domain hs hc ho, ?_⟩, rfl, rfl⟩
  rw [tick_eq]
  omega

/-! The forward distance (R105, R106). -/

theorem fwd_of_le {a b : Int} (h : a ≤ b) : fwd a b = b - a := if_pos (Int.sub_nonneg_of_le h)

theorem fwd_of_lt {a b : Int} (h : b < a) : fwd a b = 196608000 + (b - a) := if_neg (by omega)

/-- Inside the tick domain `fwd` is the forward circular distance (R106). -/
theorem fwd_eq_emod {a b : Int} (ha : 0 ≤ a) (ha' : a < 196608000) (hb : 0 ≤ b) (hb' : b < 196608000) :
    fwd a b = (b - a) % 196608000 := by
  rcases fwd_cases a b with ⟨hle, e⟩ | ⟨hlt, e⟩ <;> rw [e] <;> omega

theorem fwd_mem_domain {a b : Int} (ha : 0 ≤ a) (ha' : a < 196608000) (hb : 0 ≤ b) (hb' : b < 196608000) :
    0 ≤ fwd a b ∧ fwd a b < 196608000 := by
  rw [fwd_eq_emod ha ha' hb hb']
  exact ⟨Int.emod_nonneg _ (by decide), Int.emod_lt_of_pos _ (by decide)⟩

/-- Settles O35. -/
theorem forwardDistanceIsModular : Obligations.ForwardDistanceIsModular := by
  refine ⟨fun a b => ⟨fwd_of_le, fwd_of_lt⟩,
    fun a b ha ha' hb hb' => ⟨fwd_eq_emod ha ha' hb hb', fwd_mem_domain ha ha' hb hb'⟩, fun a b h => ?_, fun a b h => ?_, fwd_self⟩
  · rw [fwd_of_lt (by omega)]; omega
  · rw [fwd_of_le (by omega)]; omega

/-- Settles O45: both timestamps are in the tick domain, the new one because its offset is below 3072. -/
theorem elapseIsForwardDistance : Obligations.ElapseIsForwardDistance := by
  intro p s t rec side last hlast hdom ho hexec hrsp hts
  obtain rfl := eq_runPacket_of_exec hexec
  obtain ⟨b, -, -, -, hnone | ⟨r, hsome⟩⟩ := runPacket_record_cases hrsp
  · exact absurd (hnone.symm.trans hts) nofun
  · obtain rfl := Option.some.inj (hsome.symm.trans hts)
    have htstamp : tstampOf itdConfig p < 196608000 := tstampOf_lt_domain itdConfig ho
    have helapse : (timestampSide itdConfig p r s).elapse = fwd last (tstampOf itdConfig p) := elapseOf_later hlast _
    rw [helapse]
    exact ⟨htstamp, fwd_eq_emod (by omega) (by omega) (by omega) (by omega),
      fwd_mem_domain (by omega) (by omega) (by omega) (by omega)⟩

/-! The gap in the offset domain (R107). -/

theorem gap3072_of_lt {p q : Int} (h : p < q) : gap3072 p q = q - p := if_pos h

theorem gap3072_of_le {p q : Int} (h : q ≤ p) : gap3072 p q = 3072 + q - p := if_neg (Int.not_lt.2 h)

/-- Settles O36: every case follows from the two arms. -/
theorem offsetGapCases : Obligations.OffsetGapCases := by
  intro p q
  refine ⟨gap3072_of_lt, gap3072_of_le, ?_⟩
  rcases gap3072_cases p q with ⟨hlt, e⟩ | ⟨hle, e⟩ <;> rw [e] <;> omega

end Sys2Proof.Machine
end

section
/-! SUPPORT. The rate table and the drift accumulator in sub-ticks (40_clock_arith.md R110 to R113). -/

namespace Sys2Proof.Machine

theorem rateOf_isSome_iff (c : Config) (sfc : BitVec 8) : (rateOf c sfc).isSome = true ↔ ∃ r ∈ c.rateTable, r.code = sfc := by
  simp [rateOf, List.find?_isSome]

/-- The default table has the codes 0 to 6 (R110). -/
theorem exists_defaultRate_iff (sfc : BitVec 8) : (∃ r ∈ defaultRateTable, r.code = sfc) ↔ sfc.toNat ≤ 6 := by
  constructor
  · rintro ⟨r, hr, rfl⟩
    revert r
    decide
  · intro h
    have hcode : sfc = BitVec.ofNat 8 sfc.toNat := (BitVec.ofNat_toNat 8 sfc).symm
    rw [hcode]
    generalize sfc.toNat = n at h
    interval_cases n <;> decide

/-- Settles O38. -/
theorem defaultRatesAndIncrements : Obligations.DefaultRatesAndIncrements :=
  ⟨subtickDen_itdConfig, by rw [subtickDomain_eq, subtickDen_itdConfig],
    fun sfc => (rateOf_isSome_iff itdConfig sfc).trans (exists_defaultRate_iff sfc), by decide, by decide⟩

/-- The increment of any default rate is far below the tick domain (R112). -/
theorem increment_itdConfig_le {r : RateRow} (hr : r ∈ itdConfig.rateTable) : increment itdConfig r ≤ 903168 := by
  revert r
  decide

theorem subtickDomain_itdConfig : subtickDomain itdConfig = 28901376000 := by rw [subtickDomain_eq, subtickDen_itdConfig]

/-- Settles O39: an accumulator and an increment together stay below twice the domain. -/
theorem accumulatorReducesOnce : Obligations.AccumulatorReducesOnce := by
  intro last r hlast hr
  have hinc := increment_itdConfig_le hr
  have hadvance : advance itdConfig last r = (last + increment itdConfig r) % 28901376000 := by
    rw [advance, subtickDomain_itdConfig]
  rw [hadvance]
  exact ⟨rfl, Nat.mod_lt _ (by decide), by omega⟩

end Sys2Proof.Machine
end

section
/-! SUPPORT. The sub-tick arithmetic is the rational arithmetic: `ticksOfSubticks` carries each operation of Clock.lean to the
one of Rational.lean (00_scope.md R13, 40_clock_arith.md R108, R111 to R113). -/

namespace Sys2Proof.Machine

/-! The circular difference on rationals (R108). -/

section
variable {a : ℚ} {t : ℤ}

theorem rationalCdiff_of_abs_lt (h : |a - t| < 98304000) : rationalCdiff a t = a - t :=
  if_pos (h.trans_eq (by norm_num))

theorem rationalCdiff_of_le_abs (h : 98304000 ≤ |a - t|) : rationalCdiff a t = 196608000 + (a - t) := by
  have hge : ¬ |a - t| < (tickDomain : ℚ) / 2 := not_lt.2 (le_trans (by norm_num) h)
  rw [rationalCdiff, if_neg hge, tickDomain_eq, Nat.cast_ofNat]

end

/-- Settles O37: the strict test sends each range of `a - t` to one arm. -/
theorem circularDifferenceCases : Obligations.CircularDifferenceCases := by
  intro a t
  have hnear (h1 : -98304000 < a - t) (h2 : a - t < 98304000) : rationalCdiff a t = a - t :=
    rationalCdiff_of_abs_lt (abs_lt.2 ⟨h1, h2⟩)
  have hbehind (h : a - t ≤ -98304000) : rationalCdiff a t = 196608000 + (a - t) :=
    rationalCdiff_of_le_abs (le_abs.2 (.inr (by linarith)))
  have hahead (h : 98304000 ≤ a - t) : rationalCdiff a t = 196608000 + (a - t) :=
    rationalCdiff_of_le_abs (le_abs.2 (.inl h))
  refine ⟨hnear, fun h1 h2 => ?_, fun h => ?_, fun h => ?_, fun h => ?_, fun h1 h2 hne => ?_⟩
  · rw [hbehind h2.le]
    exact ⟨rfl, by linarith, by linarith⟩
  · rw [hbehind h.le, h]
    norm_num
  · rw [hahead h]
    exact ⟨rfl, by linarith⟩
  · rw [hbehind (by linarith)]
    exact ⟨rfl, by linarith⟩
  · rcases lt_or_gt_of_ne hne with hlt | hgt
    · rw [hbehind hlt.le]
      exact abs_lt.2 ⟨by linarith, by linarith⟩
    · rw [hnear hgt h2]
      exact abs_lt.2 ⟨hgt, h2⟩

/-! Sub-ticks as ticks (R112). -/

section
variable {c : Config}

theorem ticksOfSubticks_add (m n : ℤ) : ticksOfSubticks c (m + n) = ticksOfSubticks c m + ticksOfSubticks c n := by
  rw [ticksOfSubticks, Int.cast_add, add_div, ticksOfSubticks, ticksOfSubticks]

theorem ticksOfSubticks_sub (m n : ℤ) : ticksOfSubticks c (m - n) = ticksOfSubticks c m - ticksOfSubticks c n := by
  rw [ticksOfSubticks, Int.cast_sub, sub_div, ticksOfSubticks, ticksOfSubticks]

/-- A distance in ticks and the same distance in sub-ticks meet a bound together. -/
theorem abs_ticksOfSubticks_lt_iff (hden : 0 < subtickDen c) (n : ℤ) (k : ℕ) :
    |ticksOfSubticks c n| < k ↔ n.natAbs < k * subtickDen c := by
  have hden' : (0 : ℚ) < subtickDen c := by exact_mod_cast hden
  rw [ticksOfSubticks, abs_div, abs_of_pos hden', div_lt_iff₀ hden', ← Int.cast_abs, Int.abs_eq_natAbs]
  norm_cast

/-- A whole number of ticks comes back from its sub-ticks. -/
theorem ticksOfSubticks_mul_den (hden : 0 < subtickDen c) (n : ℤ) : ticksOfSubticks c (n * subtickDen c) = n := by
  have hden' : (subtickDen c : ℚ) ≠ 0 := by exact_mod_cast hden.ne'
  rw [ticksOfSubticks, Int.cast_mul, Int.cast_natCast, mul_div_cancel_right₀ _ hden']

theorem ticksOfSubticks_toSubticks (hden : 0 < subtickDen c) (ticks : ℕ) :
    ticksOfSubticks c (toSubticks c ticks) = ticks := by
  rw [toSubticks, Nat.cast_mul, ticksOfSubticks_mul_den hden, Int.cast_natCast]

theorem ticksOfSubticks_subtickDomain_mul (hden : 0 < subtickDen c) (k : ℤ) :
    ticksOfSubticks c (subtickDomain c * k) = tickDomain * k := by
  have hcomm : (subtickDomain c : ℤ) * k = tickDomain * k * subtickDen c := by
    rw [subtickDomain, Nat.cast_mul, mul_right_comm]
  rw [hcomm, ticksOfSubticks_mul_den hden, Int.cast_mul, Int.cast_natCast]

/-- Reduction modulo the domain, in sub-ticks and in ticks (R13, R113). -/
theorem ticksOfSubticks_emod (hden : 0 < subtickDen c) (n : ℤ) :
    ticksOfSubticks c (n % subtickDomain c) = rationalMod (ticksOfSubticks c n) := by
  have hfloor : ⌊ticksOfSubticks c n / tickDomain⌋ = n / (subtickDomain c : ℤ) := by
    rw [ticksOfSubticks, div_div, ← Nat.cast_mul, Nat.mul_comm]
    exact Rat.floor_intCast_div_natCast n (subtickDomain c)
  rw [rationalMod, hfloor, Int.emod_def, ticksOfSubticks_sub, ticksOfSubticks_subtickDomain_mul hden]

/-- The machine's increment is the exact one, since it is a whole number of sub-ticks (R111, R112). -/
theorem ticksOfSubticks_increment (hc : c.wellFormed = true) {r : RateRow} (hr : r ∈ c.rateTable) :
    ticksOfSubticks c (increment c r) = rationalIncrement r := by
  have hrate : (r.rate : ℚ) ≠ 0 := by exact_mod_cast (rate_pos_of_wellFormed hc hr).ne'
  have hden : (subtickDen c : ℚ) ≠ 0 := by exact_mod_cast (subtickDen_pos hc).ne'
  rw [ticksOfSubticks, rationalIncrement, Int.cast_natCast, div_eq_div_iff hden hrate]
  exact_mod_cast increment_mul_rate hr

/-- The prediction is advanced and reduced exactly (R113, R157). -/
theorem ticksOfSubticks_advance (hc : c.wellFormed = true) {r : RateRow} (hr : r ∈ c.rateTable) (last : ℕ) :
    ticksOfSubticks c (advance c last r) = rationalAdvance (ticksOfSubticks c last) r := by
  rw [advance, Int.natCast_emod, ticksOfSubticks_emod (subtickDen_pos hc), Int.natCast_add, ticksOfSubticks_add,
    ticksOfSubticks_increment hc hr, rationalAdvance]

/-- The circular difference takes the same arm in sub-ticks and in ticks (R108, R158). -/
theorem ticksOfSubticks_cdiff (hden : 0 < subtickDen c) (accum : ℤ) (tstamp : ℕ) :
    ticksOfSubticks c (cdiff c accum (toSubticks c tstamp)) = rationalCdiff (ticksOfSubticks c accum) tstamp := by
  have hsub : ticksOfSubticks c (accum - toSubticks c tstamp) = ticksOfSubticks c accum - (tstamp : ℤ) := by
    rw [ticksOfSubticks_sub, ticksOfSubticks_toSubticks hden, Int.cast_natCast]
  have hbound := abs_ticksOfSubticks_lt_iff hden (accum - toSubticks c tstamp) 98304000
  rw [hsub, Nat.cast_ofNat] at hbound
  rcases cdiff_cases c accum (toSubticks c tstamp) with ⟨hlt, e⟩ | ⟨hle, e⟩
  · rw [e, hsub, rationalCdiff_of_abs_lt (hbound.2 hlt)]
  · have hdomain : ticksOfSubticks c (subtickDomain c) = 196608000 := by
      simpa using ticksOfSubticks_subtickDomain_mul hden 1
    rw [e, ticksOfSubticks_add, hdomain, hsub, rationalCdiff_of_le_abs (not_lt.1 fun h => hle.not_gt (hbound.1 h))]

end

theorem driftOf_later {s : State} {last : Nat} (h : s.lastAccum = some last) (c : Config) (r : RateRow) (tstamp : Nat) :
    driftOf c r tstamp s = cdiff c (advance c last r) (toSubticks c tstamp) := by
  simp [driftOf, h]

/-- Settles O40: a full commit stores the advanced prediction, and its record carries the circular difference. -/
theorem driftIsExactRationalArithmetic : Obligations.DriftIsExactRationalArithmetic := by
  intro c p s r b last hc hb hsyt hr hlast
  have hrow : r ∈ c.rateTable := rateOf_mem hr
  have hdrift : (timestampSide c p r s).accumDiff.num = cdiff c (advance c last r) (toSubticks c (tstampOf c p)) :=
    driftOf_later hlast c r _
  rw [runPacket_of_timed hb hsyt hr]
  refine ⟨advance c last r, _, timestampSide c p r s, ?_, commitTimed_rspPort c p r b s, rfl, rfl,
    ticksOfSubticks_advance hc hrow last, ?_⟩
  · rw [commitTimed_lastAccum, accumOf_later hlast]
  · rw [hdrift, ticksOfSubticks_cdiff (subtickDen_pos hc)]

end Sys2Proof.Machine
end

section
/-! SUPPORT. The responses already presented are read by nothing: every operation, step and run adds the same responses to any
history, so what an INIT constructs is all that a later command can see (20_memory.md R56, 41_init.md R121). -/

namespace Sys2Proof.Machine

/-- The state with another history of responses. -/
def State.withHistory (past : List Response) (s : State) : State := { s with rspPort := past }

section
variable (past : List Response) (s : State)

@[simp] theorem State.withHistory_cmdPort : (s.withHistory past).cmdPort = s.cmdPort := rfl
@[simp] theorem State.withHistory_rspPort : (s.withHistory past).rspPort = past := rfl

theorem sameRegisters_withHistory : SameRegisters s (s.withHistory past) := ⟨rfl, rfl, rfl, rfl, rfl, rfl⟩

theorem countBlocks_withHistory (c : Config) (p : Packet) : countBlocks c p (s.withHistory past) = countBlocks c p s := rfl

end

/-- DPK answers the same over any history, whichever of its ends it comes to. -/
theorem runPacket_withHistory (c : Config) (p : Packet) (s : State) :
    ∃ r, ∀ past, runPacket c p (s.withHistory past) = (runPacket c p s).withHistory (past ++ [r]) := by
  have hcount := fun past => countBlocks_withHistory past s c p
  cases hb : countBlocks c p s with
  | error f =>
    rw [runPacket_of_countFault hb]
    exact ⟨.fault opDpk f, fun past => runPacket_of_countFault ((hcount past).trans hb)⟩
  | ok b =>
    by_cases hsyt : p.syt = noSyt
    · rw [runPacket_of_untimed hb hsyt]
      exact ⟨.record ⟨none, b.perPayload, b.report⟩, fun past => runPacket_of_untimed ((hcount past).trans hb) hsyt⟩
    · cases hr : rateOf c p.sfc with
      | none =>
        rw [runPacket_of_unknownRate hb hsyt hr]
        exact ⟨.fault opDpk (.unsupportedRate p.sfc),
          fun past => runPacket_of_unknownRate ((hcount past).trans hb) hsyt hr⟩
      | some r =>
        rw [runPacket_of_timed hb hsyt hr]
        exact ⟨.record ⟨some (timestampSide c p r s), b.perPayload, b.report⟩,
          fun past => runPacket_of_timed ((hcount past).trans hb) hsyt hr⟩

section
variable {s t : State}

theorem exec_withHistory {i : Instr} (h : exec i s = .next t) :
    ∃ r, ∀ past, exec i (s.withHistory past) = .next (t.withHistory (past ++ [r])) := by
  cases i with
  | init chan =>
    obtain rfl := Host.Outcome.next.inj h
    exact ⟨.ok, fun _ => rfl⟩
  | dcs raw32 =>
    obtain rfl := Host.Outcome.next.inj h
    exact ⟨.position (cycleStartSecond raw32) (cycleStartCycle raw32), fun _ => rfl⟩
  | dpk q sec cycle cip0 cip1 =>
    obtain rfl := Host.Outcome.next.inj h
    obtain ⟨r, hr⟩ := runPacket_withHistory itdConfig ⟨q, sec, cycle, cip0, cip1⟩ s
    exact ⟨r, fun past => congrArg Host.Outcome.next (hr past)⟩

theorem step_withHistory (h : step s = .next t) :
    ∃ r, ∀ past, step (s.withHistory past) = .next (t.withHistory (past ++ [r])) := by
  rcases step_cases h with ⟨i, rest, hd, hexec⟩ | ⟨op, why, rest, hd, rfl⟩
  · obtain ⟨r, hr⟩ := exec_withHistory hexec
    exact ⟨r, fun past => (step_of_command (s := s.withHistory past) hd).trans (hr past)⟩
  · exact ⟨.fault op .illegalCommand, fun past => step_of_illegal (s := s.withHistory past) hd⟩

/-- A run presents the same responses, and ends in the same registers, over any history. -/
theorem run_withHistory {n : Nat} (h : run n s = .next t) :
    ∃ rs, ∀ past, run n (s.withHistory past) = .next (t.withHistory (past ++ rs)) := by
  induction n generalizing s with
  | zero =>
    obtain rfl := Host.Outcome.next.inj h
    exact ⟨[], fun past => by rw [run_zero, List.append_nil]⟩
  | succ n ih =>
    obtain ⟨u, hstep, hrun⟩ := run_succ_cases h
    obtain ⟨r, hr⟩ := step_withHistory hstep
    obtain ⟨rs, hrs⟩ := ih hrun
    refine ⟨r :: rs, fun past => ?_⟩
    rw [run_succ_of_next (hr past), hrs, List.append_assoc, List.singleton_append]

end

/-- The state in which the first command after an INIT begins: nothing of the state before is in it (10_state.md R35). -/
def afterInit (chan : BitVec 32) (ws : List Word) : State := (State.reset.construct itdConfig chan).takeFrame ws

/-- An INIT at the front of the command port leads from any state to `afterInit`, but for the history of responses (R121). -/
theorem step_of_init {chan : BitVec 32} {ws : List Word} {s : State} (h : s.cmdPort = encode (.init chan) ++ ws) :
    step s = .next ((afterInit chan ws).withHistory (s.rspPort ++ [.ok])) :=
  stepBy_of_encode h

/-- Settles O18: after the INIT the two instances differ in their histories alone, and no run reads its history. -/
theorem initForgetsThePast : Obligations.InitForgetsThePast := by
  intro chan ws s t s' n hs ht hrun
  rw [run_succ_of_next (step_of_init hs)] at hrun
  obtain ⟨rs, hrs⟩ := run_withHistory hrun
  have hself : s' = s'.withHistory (s.rspPort ++ [.ok] ++ rs) := Host.Outcome.next.inj (hrun.symm.trans (hrs _))
  refine ⟨s'.withHistory (t.rspPort ++ [.ok] ++ rs), .ok :: rs, ?_, sameRegisters_withHistory _ s',
    State.withHistory_cmdPort _ s', ?_, ?_⟩
  · exact (run_succ_of_next (step_of_init ht)).trans (hrs _)
  · rw [hself, State.withHistory_rspPort, List.append_assoc, List.singleton_append]
  · rw [State.withHistory_rspPort, List.append_assoc, List.singleton_append]

end Sys2Proof.Machine
end

section
/-! SUPPORT. The layout of a cycle-start register word: packed from its fields, and masked by `S_MASK` and `C_MASK`
(30_encoding.md R83; 42_cycle_start.md R130, R133). -/

namespace Sys2Proof.Machine

section
variable (second : BitVec 7) (cycle : BitVec 13) (x : BitVec 12)

/-- A second, a cycle and the low twelve bits, each shifted into its place, are the three fields side by side. -/
theorem packedCycleStart_eq_append :
    (second.setWidth 32 <<< 25) ||| (cycle.setWidth 32 <<< 12) ||| x.setWidth 32 = second ++ cycle ++ x :=
  calc
    _ = (second ++ cycle ++ x).setWidth 32 := BitVec.setWidth_append_append_eq_shiftLeft_setWidth_or.symm
    _ = second ++ cycle ++ x := BitVec.setWidth_eq _

theorem cycleStartSecond_append : cycleStartSecond (second ++ cycle ++ x) = second :=
  calc (second ++ cycle ++ x).extractLsb' 25 7
      = (second ++ cycle).extractLsb' 13 7 := BitVec.extractLsb'_append_eq_of_le (by decide)
    _ = second.extractLsb' 0 7 := BitVec.extractLsb'_append_eq_of_le (by decide)
    _ = second := BitVec.extractLsb'_eq_self

theorem cycleStartCycle_append : cycleStartCycle (second ++ cycle ++ x) = cycle :=
  calc (second ++ cycle ++ x).extractLsb' 12 13
      = (second ++ cycle).extractLsb' 0 13 := BitVec.extractLsb'_append_eq_of_le (by decide)
    _ = cycle := BitVec.extractLsb'_append_eq_right

end

/-- DCS appends its answer to the history and leaves the rest of the state alone (R130, R131). -/
theorem exec_dcs (raw32 : Word) (s : State) :
    exec (.dcs raw32) s =
      .next { s with rspPort := s.rspPort ++ [.position (cycleStartSecond raw32) (cycleStartCycle raw32)] } := rfl

/-- Settles O21: the packed word is its fields side by side, and DCS reads the upper two back. -/
theorem dcsInvertsThePacking : Obligations.DcsInvertsThePacking := by
  intro second cycle x s
  rw [packedCycleStart_eq_append, exec_dcs, cycleStartSecond_append, cycleStartCycle_append]

/-- A mask that is `len` ones once shifted down by `start` selects the field of `len` bits at `start`. -/
theorem setWidth_field_eq_masked_shift {w start len : Nat} (raw mask : BitVec w)
    (hmask : mask >>> start = (BitVec.allOnes len).setWidth w) :
    (raw.extractLsb' start len).setWidth w = (raw &&& mask) >>> start := by
  rw [BitVec.ushiftRight_and_distrib, hmask]
  refine BitVec.eq_of_getLsbD_eq fun i hi => ?_
  simp [hi, Bool.and_comm]

/-- Settles O22: each mask, shifted down, is the ones of its field. -/
theorem dcsFieldsAreTheMaskedShifts : Obligations.DcsFieldsAreTheMaskedShifts := by
  intro raw32
  have hsMask : sMask >>> 25 = (BitVec.allOnes 7).setWidth 32 := by decide
  have hcMask : cMask >>> 12 = (BitVec.allOnes 13).setWidth 32 := by decide
  exact ⟨setWidth_field_eq_masked_shift raw32 sMask hsMask, setWidth_field_eq_masked_shift raw32 cMask hcMask⟩

end Sys2Proof.Machine
end

section
/-! SUPPORT. Step 1 of DPK in the terms of Safety.lean: which packets are counted, what they count, and the order of the faults
(43_decode_packet.md R142 to R145, R162). -/

namespace Sys2Proof.Machine

/-- What step 1 commits and reports for a packet that has a quotient; `accumulateBlocks_quotient` says that it is the model's. -/
def countedBlocks (p : Packet) (s : State) : BlockCount :=
  { resetCycle := s.resetCycle.getD p.cycle, perPayload := quotient p, report := reportedCount p s, running := runningCount p s }

section
variable {c : Config} {p : Packet} {s : State}

theorem reportedCount_first (h : s.resetCycle = none) : reportedCount p s = 0 := if_pos h

theorem reportedCount_later {rc : BitVec 16} (h : s.resetCycle = some rc) : reportedCount p s = s.dbCount + quotient p := by
  simp [reportedCount, h]

theorem runningCount_first (h : s.resetCycle = none) : runningCount p s = 0 := if_pos (.inl h)

theorem runningCount_later {rc : BitVec 16} (h : s.resetCycle = some rc) :
    runningCount p s = if p.cycle = rc then 0 else s.dbCount + quotient p := by
  simp [runningCount, reportedCount_later h, h, eq_comm]

/-- Only a later packet can report a count that does not fit: the first one reports 0 (R143, R145). -/
theorem two_pow_le_reportedCount_iff (w : Nat) :
    2 ^ w ≤ reportedCount p s ↔ s.resetCycle.isSome = true ∧ 2 ^ w ≤ s.dbCount + quotient p := by
  cases h : s.resetCycle with
  | none => simp [reportedCount_first h]
  | some rc => simp [reportedCount_later h]

theorem accumulateBlocks_quotient (p : Packet) (s : State) : accumulateBlocks p.cycle (quotient p) s = countedBlocks p s := by
  cases h : s.resetCycle with
  | none => simp [accumulateBlocks_first h, countedBlocks, reportedCount_first h, runningCount_first h, h]
  | some rc => simp [accumulateBlocks_later h, countedBlocks, reportedCount_later h, runningCount_later h, h]

/-! Step 1, branch by branch. -/

theorem countBlocks_of_short (h : p.quadsPerPayload.toNat < 2) : countBlocks c p s = .error .shortPayload := by
  simp [countBlocks, blocksPerPayload, h]

theorem countBlocks_of_dbsZero (h : 2 ≤ p.quadsPerPayload.toNat) (hdb : p.quadsPerDb = 0#8) :
    countBlocks c p s = .error .dbsZero := by
  simp [countBlocks, blocksPerPayload, Nat.not_lt.2 h, hdb]

theorem countBlocks_of_hasQuotient (h : HasQuotient p) :
    countBlocks c p s = if 2 ^ c.wDb ≤ reportedCount p s then .error .counterOverflow else .ok (countedBlocks p s) := by
  obtain ⟨hq, hdb⟩ := h
  have hquot : blocksPerPayload p = .ok (quotient p) := by simp [blocksPerPayload, quotient, Nat.not_lt.2 hq, hdb]
  simp [countBlocks, hquot, accumulateBlocks_quotient, countedBlocks]

theorem countBlocks_of_overflow (h : HasQuotient p) (hover : 2 ^ c.wDb ≤ reportedCount p s) :
    countBlocks c p s = .error .counterOverflow :=
  (countBlocks_of_hasQuotient h).trans (if_pos hover)

theorem countBlocks_of_fits (h : HasQuotient p) (hfits : reportedCount p s < 2 ^ c.wDb) :
    countBlocks c p s = .ok (countedBlocks p s) :=
  (countBlocks_of_hasQuotient h).trans (if_neg (Nat.not_le.2 hfits))

/-! After step 1. -/

/-- A counted packet can fail on its rate code alone; otherwise it commits what step 1 counted and answers with a record
(R146, R156, R160). -/
theorem runPacket_counted_cases {b : BlockCount} (hb : countBlocks c p s = .ok b) :
    (p.syt ≠ noSyt ∧ rateOf c p.sfc = none ∧ runPacket c p s = s.raise opDpk (.unsupportedRate p.sfc)) ∨
      ((p.syt = noSyt ∨ (rateOf c p.sfc).isSome = true) ∧ (runPacket c p s).resetCycle = some b.resetCycle ∧
        (runPacket c p s).dbCount = b.running ∧
        ∃ ts, (runPacket c p s).rspPort = s.rspPort ++ [.record ⟨ts, b.perPayload, b.report⟩]) := by
  by_cases hsyt : p.syt = noSyt
  · rw [runPacket_of_untimed hb hsyt]
    exact .inr ⟨.inl hsyt, rfl, rfl, _, rfl⟩
  · cases hr : rateOf c p.sfc with
    | none => exact .inl ⟨hsyt, rfl, runPacket_of_unknownRate hb hsyt hr⟩
    | some r =>
      rw [runPacket_of_timed hb hsyt hr]
      exact .inr ⟨.inr rfl, rfl, rfl, _, rfl⟩

theorem runPacket_completes {b : BlockCount} (hb : countBlocks c p s = .ok b)
    (hrate : p.syt = noSyt ∨ (rateOf c p.sfc).isSome = true) :
    (runPacket c p s).resetCycle = some b.resetCycle ∧ (runPacket c p s).dbCount = b.running ∧
      ∃ ts, (runPacket c p s).rspPort = s.rspPort ++ [.record ⟨ts, b.perPayload, b.report⟩] := by
  rcases runPacket_counted_cases hb with ⟨hsyt, hnone, -⟩ | ⟨-, h⟩
  · simp [hsyt, hnone] at hrate
  · exact h

/-- A state that raised a fault has answered with it and kept its registers (60_exceptions.md R216). -/
theorem raise_effect {s t : State} {op : BitVec 4} {f : ItdFault} {r : Response} (h : t = s.raise op f)
    (hrsp : t.rspPort = s.rspPort ++ [r]) : r = .fault op f ∧ SameRegisters s t := by
  subst h
  rw [State.raise_rspPort, List.append_cancel_left_eq] at hrsp
  exact ⟨(List.singleton_inj.1 hrsp).symm, sameRegisters_raise op f s⟩

/-- The faults of a legal frame in the order they are tested, on any build; with none of them there is a record (R162). -/
theorem runPacket_faults_in_order {t : State} {r : Response} (ht : t = runPacket c p s) (hrsp : t.rspPort = s.rspPort ++ [r]) :
    if p.quadsPerPayload.toNat < 2 then r = .fault opDpk .shortPayload ∧ SameRegisters s t
    else if p.quadsPerDb = 0#8 then r = .fault opDpk .dbsZero ∧ SameRegisters s t
    else if s.resetCycle.isSome = true ∧ 2 ^ c.wDb ≤ s.dbCount + quotient p then
      r = .fault opDpk .counterOverflow ∧ SameRegisters s t
    else if p.syt ≠ noSyt ∧ rateOf c p.sfc = none then r = .fault opDpk (.unsupportedRate p.sfc) ∧ SameRegisters s t
    else ∃ rec, r = .record rec := by
  subst ht
  split
  next hshort => exact raise_effect (runPacket_of_countFault (countBlocks_of_short hshort)) hrsp
  next hlong =>
  split
  next hdb => exact raise_effect (runPacket_of_countFault (countBlocks_of_dbsZero (Nat.le_of_not_lt hlong) hdb)) hrsp
  next hdb =>
  have hquot : HasQuotient p := ⟨Nat.le_of_not_lt hlong, hdb⟩
  simp only [← two_pow_le_reportedCount_iff]
  split
  next hover => exact raise_effect (runPacket_of_countFault (countBlocks_of_overflow hquot hover)) hrsp
  next hfits =>
  rcases runPacket_counted_cases (countBlocks_of_fits hquot (Nat.lt_of_not_le hfits)) with
    ⟨hsyt, hnone, e⟩ | ⟨hrate, -, -, ts, e⟩
  · rw [if_pos ⟨hsyt, hnone⟩]
    exact raise_effect e hrsp
  · have hknown : ¬(p.syt ≠ noSyt ∧ rateOf c p.sfc = none) := by
      rintro ⟨hsyt, hnone⟩
      simp [hsyt, hnone] at hrate
    rw [if_neg hknown]
    exact ⟨_, List.singleton_inj.1 (List.append_cancel_left (hrsp.symm.trans e))⟩

end

/-- Settles O23: the decoder answers a reserved bit, the packet itself the other faults. -/
theorem dpkFaultsInOrder : Obligations.DpkFaultsInOrder := by
  intro s w0 q cip0 cip1 rest hport hop
  have hd := decode_of_opDpk (w0 := w0) hop q cip0 cip1 rest
  rw [← hport] at hd
  by_cases hr : w0.extractLsb' 24 4 = 0#4
  · have hstep := step_of_command (hd.trans (if_pos hr))
    obtain ⟨-, -, r, hrsp⟩ :=
      runPacket_frame itdConfig ⟨q, secField w0, cycleField w0, cip0, cip1⟩ (s.takeFrame rest)
    refine ⟨_, r, hstep, hrsp, ?_⟩
    rw [if_neg (not_not.2 hr)]
    exact runPacket_faults_in_order rfl hrsp
  · refine ⟨_, _, step_of_illegal (hd.trans (if_neg hr)), rfl, ?_⟩
    rw [if_pos hr]
    exact ⟨rfl, sameRegisters_answerIllegal opDpk rest s⟩

/-- Settles O24: the two faults by name, the quotient from the count that the record carries. -/
theorem dataBlocksOfAPayload : Obligations.DataBlocksOfAPayload := by
  intro p s
  refine ⟨fun hshort => ?_, fun hlong hdb => ?_, fun hlong hdb t rec hexec hrsp => ?_⟩
  · exact congrArg Host.Outcome.next (runPacket_of_countFault (countBlocks_of_short hshort))
  · exact congrArg Host.Outcome.next (runPacket_of_countFault (countBlocks_of_dbsZero hlong hdb))
  · obtain rfl := eq_runPacket_of_exec hexec
    obtain ⟨b, hb, hdbs, -⟩ := runPacket_record_cases hrsp
    obtain ⟨-, -, -, rfl⟩ := countBlocks_ok hb
    rw [accumulateBlocks_perPayload] at hdbs
    have hle := Nat.div_le_self (p.quadsPerPayload.toNat - 2) p.quadsPerDb.toNat
    have hlt := p.quadsPerPayload.isLt
    exact ⟨hdbs, by omega⟩

/-- Settles O25. -/
theorem firstPacketIsNotCounted : Obligations.FirstPacketIsNotCounted := by
  intro p s hfirst hquot hrate
  have hfits : reportedCount p s < 2 ^ itdConfig.wDb := by
    rw [reportedCount_first hfirst]
    exact Nat.two_pow_pos _
  obtain ⟨hreset, hcount, ts, hrsp⟩ := runPacket_completes (countBlocks_of_fits hquot hfits) hrate
  refine ⟨_, _, rfl, hreset.trans ?_, hcount.trans (runningCount_first hfirst), hrsp, reportedCount_first hfirst⟩
  rw [countedBlocks, hfirst, Option.getD_none]

/-- Settles O26. -/
theorem laterPacketAccumulates : Obligations.LaterPacketAccumulates := by
  intro p s rc hlater hquot hlt hrate
  have hfits : reportedCount p s < 2 ^ itdConfig.wDb := (reportedCount_later hlater).trans_lt hlt
  obtain ⟨hreset, hcount, ts, hrsp⟩ := runPacket_completes (countBlocks_of_fits hquot hfits) hrate
  refine ⟨_, _, rfl, hreset.trans ?_, hrsp, reportedCount_later hlater, hcount.trans (runningCount_later hlater)⟩
  rw [countedBlocks, hlater, Option.getD_some]

/-- Settles O27: a counted packet answers with a record or with the fault of its rate code. -/
theorem counterOverflowAtAnyWidth : Obligations.CounterOverflowAtAnyWidth := by
  intro c p s hquot
  split
  next hfits =>
    rcases runPacket_counted_cases (countBlocks_of_fits hquot hfits) with ⟨-, -, e⟩ | ⟨-, -, -, ts, e⟩ <;> simp [e]
  next hover => exact runPacket_of_countFault (countBlocks_of_overflow hquot (Nat.le_of_not_lt hover))

/-- Settles O28. -/
theorem untimedPacketCommitsBlocksOnly : Obligations.UntimedPacketCommitsBlocksOnly :=
  fun _ _ hsyt ⟨hquot, hfits⟩ => congrArg Host.Outcome.next (runPacket_of_untimed (countBlocks_of_fits hquot hfits) hsyt)

end Sys2Proof.Machine
end

section
/-! SUPPORT. The timestamp side of DPK: the carry, the full commit's values and the free-running accumulator
(43_decode_packet.md R149 to R161). -/

namespace Sys2Proof.Machine

/-- At most one second is carried from a spliced cycle, which is below 8192 (R102, R149). -/
theorem carry_of_le {cycle : Nat} (h : cycle ≤ 8191) (sec : Nat) :
    carry sec cycle = if 8000 ≤ cycle then ((sec + 1) % 8, cycle - 8000) else (sec % 8, cycle) := by
  simp only [carry, cycleMax_eq, secMax_eq]
  refine if_ctx_congr .rfl (fun hcarry => ?_) fun _ => rfl
  have hmod : cycle % 8000 = cycle - 8000 := by omega
  rw [hmod]

/-- A cycle inside its second is spliced beyond it only by the addend, from within 14 of its end (R149). -/
theorem le_of_splice_carries {cycle sytCycle : Nat} (hsyt : sytCycle ≤ 15) (hcycle : cycle ≤ 7999)
    (hcarry : 8000 ≤ splice itdConfig cycle sytCycle) : 7986 ≤ cycle ∧ sytCycle < cycle % 16 := by
  have haddend : itdConfig.rollAdd = 14 := rfl
  rw [splice_eq _ _ hsyt, haddend] at hcarry
  split at hcarry <;> omega

/-- Settles O34. -/
theorem carryOnlyNearTheEndOfASecond : Obligations.CarryOnlyNearTheEndOfASecond := by
  intro p
  refine ⟨carry_of_le (splice_le _ _ p.sytCycle_le) _, ?_, ?_, le_of_splice_carries p.sytCycle_le⟩
  · exact Nat.le_of_lt_succ (carry_fst_lt _ _)
  · exact Nat.le_of_lt_succ (carry_snd_lt _ _)

/-! The values of a full commit, as one expression over a register that may be unset (R151, R155, R157, R158). -/

section
variable (s : State)

theorem elapseOf_eq_elim (tstamp : Nat) : elapseOf tstamp s = s.lastTstamp.elim 0 fun last => fwd last tstamp := by
  cases h : s.lastTstamp with
  | none => simp [elapseOf, h]
  | some last => exact elapseOf_later h tstamp

theorem delayGapOf_eq_elim (delay : Int) : delayGapOf delay s = s.lastDelay.elim 0 fun last => gap3072 last delay := by
  cases h : s.lastDelay with
  | none => simp [delayGapOf, h]
  | some last => exact delayGapOf_later h delay

theorem accumOf_eq_elim (c : Config) (r : RateRow) (tstamp : Nat) :
    accumOf c r tstamp s =
      s.lastAccum.elim (tstamp * subtickDen c) fun last => (last + increment c r) % subtickDomain c := by
  cases h : s.lastAccum with
  | none => exact accumOf_first h c r tstamp
  | some last => exact accumOf_later h c r tstamp

/-- The drift is measured from the prediction that the same packet commits (R157, R158). -/
theorem driftOf_eq_elim (c : Config) (r : RateRow) (tstamp : Nat) :
    driftOf c r tstamp s =
      s.lastAccum.elim 0 fun _ => cdiff c (accumOf c r tstamp s) (tstamp * subtickDen c) := by
  cases h : s.lastAccum with
  | none => simp [driftOf, h]
  | some last => simp [driftOf_later h, accumOf_later h, toSubticks]

end

/-- Settles O29: the full commit, its registers and its record one by one. -/
theorem timedPacketCommitsEverything : Obligations.TimedPacketCommitsEverything := by
  intro p s r hsyt ⟨hquot, hfits⟩ hr clock tstamp delay accum
  have haccum : accum = accumOf itdConfig r tstamp s := by
    rw [accumOf_eq_elim, subtickDen_itdConfig, subtickDomain_itdConfig]
  have hdrift : driftOf itdConfig r tstamp s =
      s.lastAccum.elim 0 fun _ => cdiff itdConfig accum (tstamp * 147) := by
    rw [driftOf_eq_elim, ← haccum, subtickDen_itdConfig, Nat.cast_ofNat]
  rw [← hdrift, ← elapseOf_eq_elim, ← delayGapOf_eq_elim, haccum, ← subtickDen_itdConfig]
  exact congrArg Host.Outcome.next (runPacket_of_timed (countBlocks_of_fits hquot hfits) hsyt hr)

/-! The accumulator over a stream of packets (R157). -/

section
variable {c : Config} {p : Packet} {s : State}

theorem accumulatorStep_of_countFault {f : ItdFault} (hb : countBlocks c p s = .error f) : accumulatorStep c p s = 0 := by
  simp [accumulatorStep, hb]

theorem accumulatorStep_of_untimed (hsyt : p.syt = noSyt) : accumulatorStep c p s = 0 := by
  cases hb : countBlocks c p s <;> simp [accumulatorStep, hb, hsyt]

theorem accumulatorStep_of_unknownRate (hr : rateOf c p.sfc = none) : accumulatorStep c p s = 0 := by
  cases hb : countBlocks c p s <;> simp [accumulatorStep, hb, hr]

theorem accumulatorStep_of_timed {b : BlockCount} {r : RateRow} (hb : countBlocks c p s = .ok b) (hsyt : p.syt ≠ noSyt)
    (hr : rateOf c p.sfc = some r) : accumulatorStep c p s = increment c r := by
  simp [accumulatorStep, hb, hsyt, hr]

/-- One packet moves a set accumulator by its own step, modulo the domain: only a full commit moves it at all. -/
theorem runPacket_lastAccum {a : Nat} (ha : s.lastAccum = some a) :
    ∃ v, (runPacket c p s).lastAccum = some v ∧ v ≡ a + accumulatorStep c p s [MOD subtickDomain c] := by
  cases hb : countBlocks c p s with
  | error f =>
    rw [runPacket_of_countFault hb, accumulatorStep_of_countFault hb]
    exact ⟨a, ha, .rfl⟩
  | ok b =>
    by_cases hsyt : p.syt = noSyt
    · rw [runPacket_of_untimed hb hsyt, accumulatorStep_of_untimed hsyt]
      exact ⟨a, ha, .rfl⟩
    · cases hr : rateOf c p.sfc with
      | none =>
        rw [runPacket_of_unknownRate hb hsyt hr, accumulatorStep_of_unknownRate hr]
        exact ⟨a, ha, .rfl⟩
      | some r =>
        rw [runPacket_of_timed hb hsyt hr, accumulatorStep_of_timed hb hsyt hr, commitTimed_lastAccum, accumOf_later ha]
        exact ⟨_, rfl, Nat.mod_modEq _ _⟩

end

/-- Settles O41, by induction on the stream: the steps of its packets add up, modulo the domain. -/
theorem accumulatorIsFreeRunning : Obligations.AccumulatorIsFreeRunning := by
  intro c ps s a ha
  induction ps generalizing s a with
  | nil => exact ⟨a, ha, rfl⟩
  | cons p ps ih =>
    obtain ⟨w, hw, hstep⟩ := runPacket_lastAccum (c := c) (p := p) ha
    obtain ⟨v, hv, hrest⟩ := ih (runPacket c p s) w hw
    refine ⟨v, hv, ?_⟩
    calc v ≡ w + accumulatorSteps c ps (runPacket c p s) [MOD subtickDomain c] := hrest
      _ ≡ a + accumulatorStep c p s + accumulatorSteps c ps (runPacket c p s) [MOD subtickDomain c] := hstep.add_right _
      _ = a + accumulatorSteps c (p :: ps) s := Nat.add_assoc _ _ _

/-! A regular stream at 48 kHz (R159). -/

/-- At 48 kHz a packet is 4096 ticks long, on any build whose table has the row (R111, R112). -/
theorem increment_of_48kHz {c : Config} {r : RateRow} (hr : r ∈ c.rateTable) (hrate : r.rate = 48000)
    (hint : r.sytInterval = 8) : increment c r = 4096 * subtickDen c := by
  have h := increment_mul_rate hr
  rw [hrate, hint] at h
  omega

/-- The circular difference of equal operands is 0 (R108). -/
theorem cdiff_self {c : Config} (hc : c.wellFormed = true) (a : Int) : cdiff c a a = 0 := by
  have hden := subtickDen_pos hc
  rcases cdiff_cases c a a with ⟨-, e⟩ | ⟨hle, -⟩
  · rw [e, Int.sub_self]
  · rw [Int.sub_self, Int.natAbs_zero] at hle
    omega

/-- Settles O42: the prediction advances by the same 4096 ticks and is reduced as the timestamp is. -/
theorem regularStepHasNoDrift : Obligations.RegularStepHasNoDrift := by
  intro c p s r b a hc hb hsyt hr hrate hint hlast htstamp
  have hadvance : advance c (a * subtickDen c) r = toSubticks c (tstampOf c p) := by
    rw [advance, increment_of_48kHz (rateOf_mem hr) hrate hint, ← Nat.add_mul, subtickDomain_eq, Nat.mul_mod_mul_right,
      htstamp, toSubticks]
  rw [runPacket_of_timed hb hsyt hr]
  refine ⟨_, timestampSide c p r s, commitTimed_rspPort c p r b s, rfl, ?_⟩
  calc driftOf c r (tstampOf c p) s
      = cdiff c (advance c (a * subtickDen c) r) (toSubticks c (tstampOf c p)) := driftOf_later hlast c r _
    _ = 0 := by rw [hadvance, cdiff_self hc]

end Sys2Proof.Machine
end

section
/-! SUPPORT. The text contract (44_row_format.md): how wide a column is, where the columns of a joined line stand, and how the
drift is rounded. -/

namespace Sys2Proof.Machine

/-! The width of a column (R195, R196). -/

theorem padLeft_eq_leftpad (w : Nat) (cs : List Char) : padLeft w cs = cs.leftpad w ' ' := rfl

/-- A text that fits its column is padded to exactly the column's width. -/
theorem length_padLeft_of_le {w : Nat} {cs : List Char} (h : cs.length ≤ w) : (padLeft w cs).length = w := by
  rw [padLeft_eq_leftpad, List.length_leftpad, Nat.max_eq_left h]

theorem length_decimal_le {n k : Nat} (hk : 0 < k) (h : n < 10 ^ k) : (decimal n).length ≤ k :=
  (Nat.length_toDigits_le_iff (by decide) hk).2 h

theorem signText_of_neg {v : Int} (h : v < 0) : signText v = ['-'] := if_pos h

theorem signText_of_nonneg {v : Int} (h : 0 ≤ v) : signText v = [] := if_neg (Int.not_lt.2 h)

/-- A number fits `w` characters when its digits do, and a negative one when they leave a place for its sign. -/
theorem length_signed_decimal_le {w n : Nat} {v : Int} (hw : 2 ≤ w) (hneg : v < 0 → n < 10 ^ (w - 1))
    (hnonneg : 0 ≤ v → n < 10 ^ w) : (signText v ++ decimal n).length ≤ w := by
  rcases Int.lt_or_le v 0 with hv | hv
  · have hdigits := length_decimal_le (by omega) (hneg hv)
    rw [signText_of_neg hv, List.length_append, List.length_singleton]
    omega
  · rw [signText_of_nonneg hv, List.nil_append]
    exact length_decimal_le (by omega) (hnonneg hv)

theorem length_intColumn {w : Nat} {v : Int} (hw : 2 ≤ w) (hlo : -(10 ^ (w - 1) : Nat) < v) (hhi : v < (10 ^ w : Nat)) :
    (intColumn w v).length = w :=
  length_padLeft_of_le (length_signed_decimal_le hw (by omega) (by omega))

/-- The drift column spends three characters on the point and the two digits after it. -/
theorem length_driftColumn {w : Nat} {d : SubTicks} (hw : 2 ≤ w) (hlo : -(100 * 10 ^ (w - 1) : Nat) < hundredths d)
    (hhi : hundredths d < (100 * 10 ^ w : Nat)) : (driftColumn (w + 3) d).length = w + 3 := by
  have hwhole : (signText (hundredths d) ++ decimal ((hundredths d).natAbs / 100)).length ≤ w :=
    length_signed_decimal_le hw (fun _ => by omega) (fun _ => by omega)
  refine length_padLeft_of_le ?_
  rw [List.length_append]
  exact Nat.add_le_add_right hwhole 3

/-! Joined columns (R192, R193). -/

theorem intercalate_append {α : Type} (sep : List α) {xs ys : List (List α)} (hxs : xs ≠ []) (hys : ys ≠ []) :
    sep.intercalate (xs ++ ys) = sep.intercalate xs ++ sep ++ sep.intercalate ys := by
  induction xs with
  | nil => exact absurd rfl hxs
  | cons x xs ih =>
    cases xs with
    | nil => simp [List.intercalate_cons_of_ne_nil hys]
    | cons x' xs => simpa [List.intercalate_cons_cons] using ih

/-- The width of columns of widths `ws` with `sep` characters between neighbours. -/
def joinedWidth (sep : Nat) (ws : List Nat) : Nat := ws.sum + sep * (ws.length - 1)

theorem length_intercalate {α : Type} (sep : List α) (xs : List (List α)) :
    (sep.intercalate xs).length = joinedWidth sep.length (xs.map List.length) := by
  induction xs with
  | nil => rfl
  | cons x xs ih =>
    cases xs with
    | nil => simp [joinedWidth]
    | cons x' xs =>
      rw [List.intercalate_cons_cons, List.length_append, List.length_append, ih]
      simp [joinedWidth, Nat.mul_add]
      omega

/-- The widths of the columns of a line, group by group. -/
def widthsOf (groups : List (List (List Char))) : List (List Nat) := groups.map (·.map List.length)

/-- The width of a line whose columns have the widths `ws`: one space in a group, space, bar, space between groups. -/
def lineWidth (ws : List (List Nat)) : Nat := joinedWidth 3 (ws.map (joinedWidth 1))

theorem length_joinColumns (gs : List (List (List Char))) : (joinColumns gs).length = lineWidth (widthsOf gs) := by
  simp [joinColumns, length_intercalate, lineWidth, widthsOf, Function.comp_def]

theorem joinColumns_append {gs hs : List (List (List Char))} (hgs : gs ≠ []) (hhs : hs ≠ []) :
    joinColumns (gs ++ hs) = joinColumns gs ++ [' ', '|', ' '] ++ joinColumns hs := by
  rw [joinColumns, List.map_append]
  exact intercalate_append _ (mt List.map_eq_nil_iff.1 hgs) (mt List.map_eq_nil_iff.1 hhs)

/-- A bar stands one space after the first `k` groups, wherever their widths put it. -/
theorem joinColumns_bar {gs : List (List (List Char))} {k : Nat} (hpos : 0 < k) (hlt : k < gs.length) :
    (joinColumns gs)[lineWidth ((widthsOf gs).take k) + 1]? = some '|' := by
  have htake : gs.take k ≠ [] := List.ne_nil_of_length_pos (by rw [List.length_take]; omega)
  have hdrop : gs.drop k ≠ [] := List.ne_nil_of_length_pos (by rw [List.length_drop]; omega)
  have hjoin := joinColumns_append htake hdrop
  rw [List.take_append_drop, List.append_assoc] at hjoin
  have hwidth : (joinColumns (gs.take k)).length = lineWidth ((widthsOf gs).take k) := by
    rw [length_joinColumns, widthsOf, widthsOf, List.map_take]
  rw [hjoin, ← hwidth, List.getElem?_append_right (Nat.le_add_right _ 1), Nat.add_sub_cancel_left]
  rfl

/-- The layout of both constants and of a fitting row: 65 characters, the bars at 13, 30, 43 and 54 (R193). -/
def Aligned (cs : List Char) : Prop :=
  cs.length = 65 ∧ cs[13]? = some '|' ∧ cs[30]? = some '|' ∧ cs[43]? = some '|' ∧ cs[54]? = some '|'

/-- Ten columns of the table's widths are aligned: the widths alone place the bars (R192). -/
theorem aligned_joinColumns {gs : List (List (List Char))} (h : widthsOf gs = columnWidths) : Aligned (joinColumns gs) := by
  have hlen : gs.length = 5 := by rw [← List.length_map (as := gs), ← widthsOf, h]; rfl
  have hbar {k : Nat} (hpos : 0 < k) (hlt : k < 5) : (joinColumns gs)[lineWidth (columnWidths.take k) + 1]? = some '|' :=
    h ▸ joinColumns_bar hpos (hlen ▸ hlt)
  refine ⟨?_, hbar (k := 1) ?_ ?_, hbar (k := 2) ?_ ?_, hbar (k := 3) ?_ ?_, hbar (k := 4) ?_ ?_⟩
  · rw [length_joinColumns, h]
    rfl
  all_goals decide

/-! The two constants (R190, R191). -/

/-- The labels of `HEADER` in their groups (R192). -/
def headerLabels : List (List (List Char)) :=
  [["s-".toList, "c---".toList, "o---".toList], ["tstamp---".toList, "elps".toList], ["delay".toList, "gap-".toList],
    ["accumdif".toList], ["db".toList, "dbcnt-".toList]]

theorem headerLine_eq_joinColumns : headerLine.toList = joinColumns headerLabels := by decide

theorem separatorLine_eq_joinColumns : separatorLine.toList = joinColumns (columnWidths.map (·.map dashColumn)) := by decide

theorem aligned_headerLine : Aligned headerLine.toList := by
  rw [headerLine_eq_joinColumns]
  exact aligned_joinColumns (by decide)

theorem aligned_separatorLine : Aligned separatorLine.toList := by
  rw [separatorLine_eq_joinColumns]
  exact aligned_joinColumns (by decide)

/-- Settles O57: each column that fits has the table's width, and the widths place the bars. -/
theorem fittingRowIsAligned : Obligations.FittingRowIsAligned := by
  refine ⟨fun line hline => ?_, fun r t hts hsec hcycle hoffset htstamp => ?_⟩
  · rcases List.mem_pair.1 hline with rfl | rfl
    · exact aligned_headerLine
    · exact aligned_separatorLine
  · intro helapseLo helapseHi hdelayLo hdelayHi hgapLo hgapHi hdriftLo hdriftHi hdbs hcount
    refine aligned_joinColumns ?_
    have hdrift : (driftColumn 8 t.accumDiff).length = 8 := length_driftColumn (w := 5) (by omega) (by omega) (by omega)
    simp (disch := omega) [hts, timestampColumns, widthsOf, columnWidths, length_intColumn, hdrift]

/-- The dashed columns and the separator of their group are the start of `SEPARATOR` (R194). -/
theorem dashedColumns_eq_take_separatorLine :
    joinColumns (timestampColumns none) ++ [' ', '|', ' '] = separatorLine.toList.take 56 := by decide

/-- Settles O58. -/
theorem absentRowIsDashed : Obligations.AbsentRowIsDashed := by
  intro n m
  have hnumbers : joinColumns [[intColumn 2 n, intColumn 6 m]] = intColumn 2 n ++ [' '] ++ intColumn 6 m := by
    simp [joinColumns, List.intercalate_cons_cons]
  have hdashes : timestampColumns none ≠ [] := List.cons_ne_nil _ _
  rw [row, rowChars, joinColumns_append hdashes (List.cons_ne_nil _ _), dashedColumns_eq_take_separatorLine,
    hnumbers, ← List.append_assoc, ← List.append_assoc]

/-! The rounding of the drift (R196). -/

/-- The floor where the remainder is below half, the next integer where it is above, and the even one of the two at half. -/
theorem hundredths_cases (d : SubTicks) :
    (hundredths d = 100 * d.num / d.den ∧ 2 * (100 * d.num % d.den) ≤ d.den ∨
      hundredths d = 100 * d.num / d.den + 1 ∧ (d.den : Int) ≤ 2 * (100 * d.num % d.den)) ∧
    (2 * (100 * d.num % d.den) = d.den → hundredths d % 2 = 0) := by
  simp only [hundredths]
  split
  · omega
  · split
    · omega
    · split <;> omega

/-- The error of the rounding: the remainder of the floor, or what it lacks of the denominator; never more than half. -/
theorem abs_hundredths_error {d : SubTicks} (hden : 0 < d.den) :
    (|100 * d.num - hundredths d * d.den| = 100 * d.num % d.den ∨
      |100 * d.num - hundredths d * d.den| = d.den - 100 * d.num % d.den) ∧
    2 * |100 * d.num - hundredths d * d.den| ≤ d.den := by
  have hpos : (0 : Int) < d.den := Int.natCast_pos.2 hden
  have hdiv := Int.ediv_mul_add_emod (100 * d.num) d.den
  have hrem := Int.emod_nonneg (100 * d.num) hpos.ne'
  have hlt := Int.emod_lt_of_pos (100 * d.num) hpos
  obtain ⟨⟨hfloor, hhalf⟩ | ⟨hnext, hhalf⟩, -⟩ := hundredths_cases d
  · rw [hfloor, Int.abs_eq_natAbs]
    omega
  · rw [hnext, Int.add_mul, Int.abs_eq_natAbs]
    omega

/-- Settles O59: an odd denominator has no half, and at 147 a whole sub-tick is more than half a hundredth of a tick. -/
theorem driftRoundsToNearest : Obligations.DriftRoundsToNearest := by
  intro d hden
  obtain ⟨herr, hle⟩ := abs_hundredths_error hden
  refine ⟨hle, fun htie => (hundredths_cases d).2 (by omega), fun h147 => ⟨by omega, fun hnum hzero => ?_⟩⟩
  rw [hzero, Int.zero_mul, Int.sub_zero, Int.abs_eq_natAbs] at hle
  omega

end Sys2Proof.Machine
end

section
/-! SUPPORT. What an answer with a fault says about the registers, on any build (60_exceptions.md R216). -/

namespace Sys2Proof.Machine

section
variable {c : Config} {s t : State} {op : BitVec 4} {f : ItdFault}

/-- Both commits of DPK answer with a record, so a packet that answers with a fault has made neither (R146, R160). -/
theorem runPacket_sameRegisters_of_fault {p : Packet} (hrsp : (runPacket c p s).rspPort = s.rspPort ++ [.fault op f]) :
    SameRegisters s (runPacket c p s) := by
  rcases runPacket_cases c p s with ⟨g, e⟩ | ⟨b, -, -, e⟩ | ⟨b, r, -, -, -, e⟩
  · exact (raise_effect e hrsp).2
  · simp [e, commitUntimed] at hrsp
  · simp [e, commitTimed_rspPort] at hrsp

/-- The two operations that can write a register are no exception: INIT answers with no fault, and DPK writes or faults. -/
theorem stepWith_sameRegisters_of_fault (h : stepWith c s = .next t) (hrsp : t.rspPort = s.rspPort ++ [.fault op f]) :
    SameRegisters s t := by
  rcases stepWith_effect h with ⟨chan, rest, -, rfl⟩ | ⟨p, rest, -, rfl⟩ | hsame
  · simp at hrsp
  · exact runPacket_sameRegisters_of_fault (s := s.takeFrame rest) hrsp
  · exact hsame

end

/-- Settles O51, by the effect of a step on the registers. -/
theorem faultsWriteNothing : Obligations.FaultsWriteNothing :=
  fun s _ _ _ h hrsp =>
    stepWith_sameRegisters_of_fault ((step_eq_stepWith s).symm.trans h) hrsp

end Sys2Proof.Machine
end

section
/-! SUPPORT. Where a run begins and where it ends: no command waiting, the state after reset, and a packet that finds no
timestamp behind it (70_reset_and_hazards.md R241, R247, R254). -/

namespace Sys2Proof.Machine

theorem decode_nil : decode [] = .empty := rfl

/-- Settles O11: nothing waiting decodes as `empty`, which `step` answers with its stop. -/
theorem emptyCommandPortEndsTheRun : Obligations.EmptyCommandPortEndsTheRun :=
  fun _ hport => stepBy_of_empty (by rw [hport, decode_nil])

/-- INIT 0 finds every register after reset as it would construct it, so it adds its answer to the history alone (R35, R36). -/
theorem exec_init_zero_reset : exec (.init 0#32) State.reset = .next (State.reset.withHistory [.ok]) := rfl

/-- Settles O19: the two states differ in their histories alone, and no operation reads its history. -/
theorem resetIsInitZero : Obligations.ResetIsInitZero := by
  refine ⟨_, exec_init_zero_reset, sameRegisters_withHistory _ _, fun i => ?_⟩
  obtain ⟨t, -, hexec, -⟩ := exec_frame i State.reset
  obtain ⟨r, hr⟩ := exec_withHistory hexec
  have hself : t = t.withHistory [r] := Host.Outcome.next.inj (hexec.symm.trans (hr []))
  exact ⟨t, t.withHistory [.ok, r], r, hexec, hr [.ok], sameRegisters_withHistory _ t, congrArg State.rspPort hself, rfl⟩

section
variable {s : State}

theorem elapseOf_first (h : s.lastTstamp = none) (tstamp : Nat) : elapseOf tstamp s = 0 := by
  rw [elapseOf_eq_elim, h, Option.elim_none]

theorem delayGapOf_first (h : s.lastDelay = none) (delay : Int) : delayGapOf delay s = 0 := by
  rw [delayGapOf_eq_elim, h, Option.elim_none]

theorem driftOf_first (h : s.lastAccum = none) (c : Config) (r : RateRow) (tstamp : Nat) : driftOf c r tstamp s = 0 := by
  rw [driftOf_eq_elim, h, Option.elim_none]

end

/-- Settles O43: a record's timestamp side is computed from the registers the packet found, and each is unset. -/
theorem firstValidRecordIsABaseline : Obligations.FirstValidRecordIsABaseline := by
  intro p s t rec side htstamp hdelay haccum hexec hrsp hts
  obtain rfl := eq_runPacket_of_exec hexec
  obtain ⟨b, -, -, -, hnone | ⟨r, hside⟩⟩ := runPacket_record_cases hrsp
  · cases hnone.symm.trans hts
  · obtain rfl := Option.some.inj (hside.symm.trans hts)
    exact ⟨elapseOf_first htstamp _, delayGapOf_first hdelay _, driftOf_first haccum _ _ _⟩

end Sys2Proof.Machine
end

section
/-! SUPPORT. The worked frames of 30_encoding.md section 4, and a word stream that stops before its frame is whole
(93_implementation_defined.md U13). -/

namespace Sys2Proof.Machine

/-- The header of the worked DPK frame: second 3 and cycle 100 in their fields (R74, R140). -/
theorem header_worked_dpk : header (.dpk 18#32 3#8 100#16 0x00020000#32 0x000273E8#32) = 0x30030064#32 := by decide

/-- Settles O4: each worked frame is the encoding of what it spells, with no word after it. -/
theorem workedEncodingsDecode : Obligations.WorkedEncodingsDecode := by
  refine ⟨decode_encode_append (.init 5#32) [], decode_encode_append (.dcs 0x0FF3F000#32) [], ?_⟩
  rw [← header_worked_dpk]
  exact decode_encode_append (.dpk 18#32 3#8 100#16 0x00020000#32 0x000273E8#32) []

/-- Settles O12: in each case the words are fewer than the length their header announces, so the decoder finds no frame. -/
theorem streamEndingInsideFrameIsRefused : Obligations.StreamEndingInsideFrameIsRefused := by
  intro s w0 ops hport hshort
  have hlen : ops.length + 1 < frameLength (opOf w0) := by
    rcases hshort with ⟨hop | hop, rfl⟩ | ⟨hop, hops⟩
    · have hinit : opOf w0 = opInit := hop
      simp [hinit]
    · have hdcs : opOf w0 = opDcs := hop
      simp [hdcs]
    · have hdpk : opOf w0 = opDpk := hop
      rw [hdpk, frameLength_dpk]
      exact Nat.succ_lt_succ hops
  exact stepBy_of_incomplete (hport ▸ decode_of_short hlen)

end Sys2Proof.Machine
end
